-- ==== Sys2Proof/Word.lean ====
section
/-! DEFINITION. The two word types of the core: every datum is a byte, every command and response a
16-bit word (00_scope.md R5, 30_encoding.md R56, R58). -/

namespace Sys2Proof

/-- A byte is 8 bits (R5). -/
abbrev Byte := BitVec 8

/-- A command word or a response word: 16 bits (R5). -/
abbrev Word := BitVec 16

end Sys2Proof
end

