-- ==== Sys2Proof/Config.lean ====
section
/-! DEFINITION. What the spec leaves open: the parameter `RX_CK_FROM` (00_scope.md R6) and the free
bytes of the payload RAM after the reset input (10_state.md R35). -/

namespace Sys2Proof

/-- `RX_CK_FROM`, "an integer in {3, 4, 5}" (R6): the offset from `start` of the first byte that the
incoming-frame checksum covers. The value in force is the field `rxCkFrom` of State (log entry 6). -/
inductive RxCkFrom where
  /-- 3: the region starts at sizeField. -/
  | from3
  /-- 4: the region starts at the type byte. -/
  | from4
  /-- 5: the payload only, the spec's default. -/
  | from5
deriving DecidableEq, Repr

/-- FREE VALUE (DESIGN CHOICE, log entry 5). The byte at an index of the payload RAM after the `n`-th
assertion of the reset input: "PBUF is unspecified" (70_reset_and_hazards.md R123). It has no body, so
nothing can be proved about its value. -/
opaque Config.pbufAfterReset : Nat → Nat → Byte

end Sys2Proof
end

