-- ==== Sys2Proof/Syntax.lean ====
section
/-! DEFINITION. The nine commands of the codec core command set, version 1: one constructor for each
row of spec/opcode_table.json (30_encoding.md R60). -/

namespace Sys2Proof

/-- One command, as `decodeCmd` of R65 yields it. Every operand has exactly the width the command
uses (R57), so every term of this type is a legal command. -/
inductive Instr where
  /-- `NOP` (42_access.md R102). -/
  | nop
  /-- `SRST m` (42_access.md R103): `m` = ARG[2:0], bit 0 builder, bit 1 decoder working state, bit 2
  results and observables. -/
  | srst (m : BitVec 3)
  /-- `BSTART t` (40_builder.md R72): `t` is the msgType. -/
  | bstart (t : Byte)
  /-- `BBYTE b` (40_builder.md R73): `b` is the next payload byte. -/
  | bbyte (b : Byte)
  /-- `BEND` (40_builder.md R74). -/
  | bend
  /-- `DBYTE b` (41_decoder.md R84): `b` is the next byte of the notification buffer. -/
  | dbyte (b : Byte)
  /-- `DEND` (41_decoder.md R86). -/
  | dend
  /-- `RDREG a` (42_access.md R104): `a` is a register address. -/
  | rdreg (a : Byte)
  /-- `RDPAY i` (42_access.md R105): `i` is a payload index. -/
  | rdpay (i : Byte)
deriving DecidableEq, Repr

end Sys2Proof
end

