-- ==== Sys2Proof/WellFormed.lean ====
section
/-! DEFINITION. Which command words are legal, read from the opcode map of 30_encoding.md R60 by match
and mask, independently of the decoder. Every term of `Instr` is legal by its operand widths
(R57), so the checks stand on the WORD: its opcode is defined (R62) and its reserved ARG bits are
0 (R61). -/

namespace Sys2Proof

/-- The mnemonic of a command, as spec/opcode_table.json spells it. -/
def Instr.mnemonic : Instr → String
  | .nop => "NOP"
  | .srst _ => "SRST"
  | .bstart _ => "BSTART"
  | .bbyte _ => "BBYTE"
  | .bend => "BEND"
  | .dbyte _ => "DBYTE"
  | .dend => "DEND"
  | .rdreg _ => "RDREG"
  | .rdpay _ => "RDPAY"

/-- One row of the opcode map of R60. -/
structure OpRow where
  /-- The mnemonic, as spec/opcode_table.json spells it. -/
  mnemonic : String
  /-- OP, the word's bits 15:8. -/
  op : Byte
  /-- The row's match word. -/
  pattern : Word
  /-- The row's mask word. -/
  mask : Word
deriving DecidableEq, Repr

/-- The opcode map of R60, row by row. -/
def opRows : List OpRow :=
  [ ⟨"NOP",    0x00, 0x0000, 0xFFFF⟩,
    ⟨"SRST",   0x01, 0x0100, 0xFFF8⟩,
    ⟨"BSTART", 0x10, 0x1000, 0xFF00⟩,
    ⟨"BBYTE",  0x11, 0x1100, 0xFF00⟩,
    ⟨"BEND",   0x12, 0x1200, 0xFFFF⟩,
    ⟨"DBYTE",  0x20, 0x2000, 0xFF00⟩,
    ⟨"DEND",   0x21, 0x2100, 0xFFFF⟩,
    ⟨"RDREG",  0x30, 0x3000, 0xFF00⟩,
    ⟨"RDPAY",  0x31, 0x3100, 0xFF00⟩ ]

/-- "A word `w` is the command of a row when `(w & mask) = match`" (R60). -/
def OpRow.isCommandOf (r : OpRow) (w : Word) : Bool := w &&& r.mask == r.pattern

/-- The opcode OP = w[15:8] stands in the map (R62). -/
def opcodeDefined (w : Word) : Bool := opRows.any fun r => r.op == w.extractLsb' 8 8

/-- No reserved ARG bit is 1 (R61): ARG is 0x00 for NOP, BEND and DEND, and ARG[7:3] is 0 for SRST. -/
def reservedClear (w : Word) : Bool :=
  let op : Byte := w.extractLsb' 8 8
  let arg : Byte := w.extractLsb' 0 8
  if op == 0x00 || op == 0x12 || op == 0x21 then arg == 0x00
  else if op == 0x01 then arg.extractLsb' 3 5 == 0
  else true

/-- A word is well formed when its opcode is defined and its reserved ARG bits are 0 (R61, R62, R63). -/
def wordWellFormed (w : Word) : Bool := opcodeDefined w && reservedClear w

end Sys2Proof
end

