-- ==== Sys2Proof/Decode.lean ====
section
/-! DEFINITION. The decode function of 30_encoding.md R65, total on all 65536 words, and the encoder
after it, from the opcode map of R60. -/

namespace Sys2Proof

/-- Why a word is ILLEGAL (60_exceptions.md R107). The response does not tell the two apart (log entry 12). -/
inductive IllegalReason where
  /-- OP is not in the opcode map (R62). -/
  | undefinedOpcode (op : Byte)
  /-- A reserved ARG bit of NOP, SRST, BEND or DEND is 1 (R61). -/
  | reservedArgBits (op arg : Byte)
deriving DecidableEq, Repr

/-- What a word decodes to (R65). -/
inductive Decoded where
  /-- A command. -/
  | cmd (i : Instr)
  /-- ILLEGAL, with the reason's name. -/
  | illegal (why : IllegalReason)
deriving DecidableEq, Repr

/-- OP = w[15:8] (R56). -/
def opField (w : Word) : Byte := w.extractLsb' 8 8

/-- ARG = w[7:0] (R56). -/
def argField (w : Word) : Byte := w.extractLsb' 0 8

/-- A command whose reserved ARG bits `arg & reserved` must be 0 (R61). -/
def checkReserved (reserved op arg : Byte) (i : Instr) : Decoded :=
  if arg &&& reserved = 0 then .cmd i else .illegal (.reservedArgBits op arg)

/-- `decodeCmd` of R65. -/
def decodeCmd (w : Word) : Decoded :=
  let op := opField w
  let arg := argField w
  if op = 0x00 then checkReserved 0xFF op arg .nop
  else if op = 0x01 then checkReserved 0xF8 op arg (.srst (arg.extractLsb' 0 3))
  else if op = 0x10 then .cmd (.bstart arg)
  else if op = 0x11 then .cmd (.bbyte arg)
  else if op = 0x12 then checkReserved 0xFF op arg .bend
  else if op = 0x20 then .cmd (.dbyte arg)
  else if op = 0x21 then checkReserved 0xFF op arg .dend
  else if op = 0x30 then .cmd (.rdreg arg)
  else if op = 0x31 then .cmd (.rdpay arg)
  else .illegal (.undefinedOpcode op)

/-- The instruction of a decoding, if it is one. -/
def Decoded.toInstr? : Decoded → Option Instr
  | .cmd i => some i
  | .illegal _ => none

/-- The host's question: the instruction this decoder reads from an instruction whose bits are `w`,
`nbits` of them given by the table and those above it 0. A command is one 16-bit word moved whole
(R64, 20_memory.md R41), so there is no byte order to apply; no longer instruction exists. -/
def decodeTableWord (nbits w : Nat) : Option Instr :=
  if nbits ≤ 16 then (decodeCmd (BitVec.ofNat 16 (w % 2 ^ nbits))).toInstr? else none

/-- The command word of OP and ARG (R56). -/
def cmd16 (op arg : Byte) : Word := op ++ arg

/-- The word of a command, from the opcode map of R60; reserved ARG bits are 0 (R61). -/
def encode : Instr → Word
  | .nop => cmd16 0x00 0x00
  | .srst m => cmd16 0x01 (m.setWidth 8)
  | .bstart t => cmd16 0x10 t
  | .bbyte b => cmd16 0x11 b
  | .bend => cmd16 0x12 0x00
  | .dbyte b => cmd16 0x20 b
  | .dend => cmd16 0x21 0x00
  | .rdreg a => cmd16 0x30 a
  | .rdpay i => cmd16 0x31 i

end Sys2Proof
end

