-- ==== Sys2Proof/Machine/State.lean ====
section
/-! DEFINITION. The state of the core as plain data, the reasons a step can stop, and the reset state
(10_state.md). The core has no general register and no program counter (R16). -/

namespace Sys2Proof.Machine

/-- Why the machine faults. Both constructors stand for states that no run reaches (log entry 7). -/
inductive Fault where
  /-- Raised by DBYTE in PHASE PAYLOAD with WCNT = 255: PBUF has no entry 255 (10_state.md R19). Safe:
  "the write index is 0 to 254 and never leaves PBUF" (41_decoder.md R83). -/
  | payloadIndex
  /-- Raised by DBYTE in PHASE CKSUM with CKCNT 2 or 3: the table of 41_decoder.md R83 has no row for it.
  Safe: CKCNT 2 is reached only together with PHASE DONE. -/
  | noScannerRow
deriving DecidableEq, Repr

/-- Why a step is refused. -/
inductive Refusal where
  /-- Raised by `exec` for an instruction that has no meaning yet. Safe. No arm uses it. -/
  | notModelled (mnemonic : String)
  /-- Raised by `step` when the host presents nothing: "it has no step that is not the execution of a
  host command or a reset" (10_state.md R13). Safe (log entry 1). -/
  | noCommand
  /-- Raised by `step` when a command is presented while the reset input is asserted: "the core executes
  no command" (70_reset_and_hazards.md R123) and R137 says nothing else of it. Safe (log entry 3). -/
  | commandDuringReset
deriving DecidableEq, Repr

/-- PHASE, the scanner state (10_state.md R18): what the next byte is. -/
inductive Phase where
  /-- 0: scanned for `0xEF`; no sync seen. -/
  | hunt
  /-- 1: the previous byte was `0xEF`. -/
  | sync1
  /-- 2: byte `start+2`, the topic. -/
  | topic
  /-- 3: byte `start+3`, the sizeField. -/
  | size
  /-- 4: byte `start+4`, the type. -/
  | type
  /-- 5: payload byte number WCNT. -/
  | payload
  /-- 6: checksum byte number CKCNT; the frame is complete. -/
  | cksum
  /-- 7: after the frame and both checksum bytes; ignored. -/
  | done
deriving DecidableEq, Repr

/-- RES, the result code (10_state.md R24). The values 6 and 7 are "never produced" (log entry 10). -/
inductive ResCode where
  /-- 0 NONE: no DEND since reset or SRST mask bit 2. -/
  | noResult
  /-- 1 NOFRAME. -/
  | noFrame
  /-- 2 MALFORMED. -/
  | malformed
  /-- 3 BATTERY. -/
  | battery
  /-- 4 WEIGHT. -/
  | weight
  /-- 5 UNRECOG. -/
  | unrecog
deriving DecidableEq, Repr

/-- MCAUSE, the cause of a MALFORMED result (10_state.md R25). -/
inductive MCause where
  /-- 0 NONE. -/
  | noCause
  /-- 1 HDR_TRUNC. -/
  | hdrTrunc
  /-- 2 LENGTH. -/
  | length
  /-- 3 SHORT. -/
  | short
deriving DecidableEq, Repr

/-- CKSTAT, the outcome of the checksum validator (10_state.md R26). -/
inductive CkStat where
  /-- 0 NOTCHECKED. -/
  | notChecked
  /-- 1 ABSENT. -/
  | absent
  /-- 2 MATCH. -/
  | matched
  /-- 3 MISMATCH. -/
  | mismatched
deriving DecidableEq, Repr

/-- The builder's five fields (10_state.md R17). -/
structure Builder where
  /-- An outgoing frame is open. -/
  bbusy : Bool
  /-- Parity of the index of the next payload byte: false even, true odd. -/
  bpar : Bool
  /-- evenSum & 0xFF of the open (or last) frame. -/
  beven : Byte
  /-- oddSum & 0xFF of the open (or last) frame. -/
  bodd : Byte
  /-- msgType of the open (or last) frame. -/
  bmsg : Byte
deriving DecidableEq, Repr

/-- The decoder's working state (10_state.md R18). -/
structure Working where
  /-- The scanner's phase. -/
  phase : Phase
  /-- A DBYTE has been accepted since the last DEND or reset. -/
  dactive : Bool
  /-- Byte `start+2`, once received. -/
  wtopic : Byte
  /-- Byte `start+3`, once received. -/
  wsize : Byte
  /-- Byte `start+4`, once received. -/
  wtype : Byte
  /-- Number of payload bytes received so far. -/
  wcnt : Byte
  /-- Number of checksum bytes received, 0 to 2. -/
  ckcnt : BitVec 2
  /-- First checksum byte, once received. -/
  wck0 : Byte
  /-- Second checksum byte, once received. -/
  wck1 : Byte
deriving DecidableEq, Repr

/-- The result registers: the outcome of the last DEND (10_state.md R20). -/
structure ResultRegs where
  /-- RES (R24). -/
  res : ResCode
  /-- MCAUSE (R25). -/
  mcause : MCause
  /-- CKSTAT (R26). -/
  ckstat : CkStat
  /-- Topic of the decoded frame. -/
  dtopic : Byte
  /-- Type of the decoded frame. -/
  dtype : Byte
  /-- sizeField of the decoded frame. -/
  dsize : Byte
  /-- Even checksum recomputed over the validator region. -/
  dcke : Byte
  /-- Odd checksum recomputed over the validator region. -/
  dcko : Byte
  /-- First checksum byte received. -/
  drxcke : Byte
  /-- Second checksum byte received. -/
  drxcko : Byte
deriving DecidableEq, Repr

/-- The observables (10_state.md R21). -/
structure Observables where
  /-- `battery`. -/
  battery : BitVec 7
  /-- rawMagnitude of the last weight frame. -/
  wmag : BitVec 16
  /-- Decimal exponent of the divisor. -/
  wexp : BitVec 3
  /-- The last weight frame had `flags & 0x02` set. -/
  wneg : Bool
  /-- BATTERY has been written by a decode. -/
  bvalid : Bool
  /-- WMAG, WEXP and WNEG have been written by a decode. -/
  wvalid : Bool
deriving DecidableEq, Repr

/-- The payload RAM (10_state.md R19): index and byte pairs, indices strictly rising, no entry equal to
what an unlisted index reads as. -/
abbrev Memory := List Host.Cell

/-- What the host presents on the core's inputs (10_state.md R15; log entries 1 and 3). -/
inductive HostEvent where
  /-- A command word on the command port. -/
  | command (w : Word)
  /-- The reset input changes to this level: true is asserted. -/
  | reset (asserted : Bool)
deriving DecidableEq, Repr

/-- Every piece of state the spec gives the core (10_state.md), and the model's own `port` and `resets`. -/
structure State where
  /-- Builder state (R17). -/
  builder : Builder
  /-- Decoder working state (R18). -/
  working : Working
  /-- Payload RAM (R19). -/
  pbuf : Memory
  /-- Result registers (R20). -/
  result : ResultRegs
  /-- Observables (R21). -/
  obs : Observables
  /-- The TX stream: every byte emitted, oldest first (R15). -/
  tx : List Byte
  /-- Every response returned, oldest first (R15, 70_reset_and_hazards.md R137). -/
  responses : List Word
  /-- The level of the reset input: true is asserted (R15). -/
  resetIn : Bool
  /-- The parameter RX_CK_FROM (00_scope.md R6; log entry 6). -/
  rxCkFrom : RxCkFrom
  /-- The MODEL's own: what the host presents, next first (log entry 1). -/
  port : List HostEvent
  /-- The MODEL's own: assertions of the reset input so far, the index of the free values (log entry 5). -/
  resets : Nat
deriving DecidableEq, Repr

/-- The builder after reset (R34). -/
def Builder.reset : Builder :=
  { bbusy := false, bpar := false, beven := 0, bodd := 0, bmsg := 0 }

/-- The working state after reset: HUNT, an empty buffer (R34). -/
def Working.reset : Working :=
  { phase := .hunt, dactive := false, wtopic := 0, wsize := 0, wtype := 0, wcnt := 0, ckcnt := 0,
    wck0 := 0, wck1 := 0 }

/-- The result registers after reset: NONE, NONE, NOTCHECKED and zeros (R34). -/
def ResultRegs.reset : ResultRegs :=
  { res := .noResult, mcause := .noCause, ckstat := .notChecked, dtopic := 0, dtype := 0, dsize := 0,
    dcke := 0, dcko := 0, drxcke := 0, drxcko := 0 }

/-- The observables after reset: not yet decoded (R34). -/
def Observables.reset : Observables :=
  { battery := 0, wmag := 0, wexp := 0, wneg := false, bvalid := false, wvalid := false }

/-- The machine right after power-on reset (R34): the TX stream empty, the reset input released, nothing
presented. PBUF lists nothing (R35; log entry 4); RX_CK_FROM has the spec's default 5 (R6; log entry 6). -/
def State.reset : State :=
  { builder := .reset, working := .reset, pbuf := [], result := .reset, obs := .reset, tx := [],
    responses := [], resetIn := false, rxCkFrom := .from5, port := [], resets := 0 }

end Sys2Proof.Machine
end

