-- ==== Sys2Proof/Machine/Ops.lean ====
section
/-! DEFINITION. The named operations over the payload RAM, the port and the units, that the meanings
share. -/

namespace Sys2Proof.Machine

/-! ### Payload RAM -/

/-- The number of entries of PBUF, indexed 0 to 254 (10_state.md R19). -/
def pbufEntries : Nat := 255

/-- What an index that PBUF does not list reads as (R35: "a model may initialise PBUF to any value, for
example all zero"). DESIGN CHOICE, log entry 4. -/
def Memory.unlisted : Byte := 0x00

/-- `PBUF[i]` (00_scope.md R9). -/
def Memory.read : Memory → Nat → Byte
  | [], _ => Memory.unlisted
  | (j, b) :: m, i => if j = i then b else Memory.read m i

/-- The list with `PBUF[i] = b` in front, unless an unlisted index reads so already. -/
def Memory.cons (i : Nat) (b : Byte) (m : Memory) : Memory :=
  if b = Memory.unlisted then m else (i, b) :: m

/-- `PBUF[i] <- b` (00_scope.md R9), keeping the canonical form. -/
def Memory.write : Memory → Nat → Byte → Memory
  | [], i, b => Memory.cons i b []
  | (j, c) :: m, i, b =>
    if i < j then Memory.cons i b ((j, c) :: m)
    else if i = j then Memory.cons i b m
    else (j, c) :: Memory.write m i b

/-- The canonical form: indices strictly rising and below 255, no entry equal to the unlisted value. -/
abbrev Memory.wf (m : Memory) : Prop :=
  m.Pairwise (fun x y => x.1 < y.1) ∧ ∀ c ∈ m, c.1 < pbufEntries ∧ c.2 ≠ Memory.unlisted

/-- The payload RAM that holds a given byte at each of its indices. -/
def Memory.fill (byteAt : Nat → Byte) : Memory :=
  ((List.range pbufEntries).map fun i => (i, byteAt i)).filter fun c => c.2 != Memory.unlisted

/-- `PBUF[0], ..., PBUF[n-1]`. -/
def Memory.firstBytes (m : Memory) (n : Nat) : List Byte := (List.range n).map (Memory.read m)

/-! ### State updates, one for each unit -/

/-- Replace the builder state. -/
def State.setBuilder (s : State) (b : Builder) : State := { s with builder := b }

/-- Replace the decoder working state. -/
def State.setWorking (s : State) (w : Working) : State := { s with working := w }

/-- Replace the payload RAM. -/
def State.setPbuf (s : State) (m : Memory) : State := { s with pbuf := m }

/-- Replace the result registers. -/
def State.setResult (s : State) (r : ResultRegs) : State := { s with result := r }

/-- Replace the observables. -/
def State.setObs (s : State) (o : Observables) : State := { s with obs := o }

/-- Replace the events the host still presents. -/
def State.setPort (s : State) (p : List HostEvent) : State := { s with port := p }

/-- Set the level of the reset input. -/
def State.setResetIn (s : State) (asserted : Bool) : State := { s with resetIn := asserted }

/-- `emit(b)`: append a byte to the TX stream (00_scope.md R9, 10_state.md R15). -/
def State.emit (s : State) (b : Byte) : State := { s with tx := s.tx ++ [b] }

/-! ### Responses and errors -/

/-- The six response codes (30_encoding.md R59). -/
inductive RespCode where
  /-- 0x00: the command executed. -/
  | ok
  /-- 0x01: undefined opcode, or a reserved ARG bit is 1. -/
  | illegal
  /-- 0x02: a builder command out of sequence. -/
  | seq
  /-- 0x03: RDREG of an unmapped address. -/
  | badreg
  /-- 0x04: RDPAY with no decoded frame held or an index not below DSIZE. -/
  | range
  /-- 0x05: RDPAY while a decode is in progress. -/
  | busy
deriving DecidableEq, Repr

/-- The CODE value of a response code (R59). -/
def RespCode.toByte : RespCode → Byte
  | .ok => 0x00
  | .illegal => 0x01
  | .seq => 0x02
  | .badreg => 0x03
  | .range => 0x04
  | .busy => 0x05

/-- The response word: CODE in bits 15:8, DATA in bits 7:0 (R58). -/
def responseWord (code : RespCode) (data : Byte) : Word := code.toByte ++ data

/-- `respond(code, data)`: return the command's one response (00_scope.md R9, 10_state.md R15). -/
def State.respond (s : State) (code : RespCode) (data : Byte) : State :=
  { s with responses := s.responses ++ [responseWord code data] }

/-- The end of a command that reads a byte: `respond(OK, data)`. -/
def respondData (data : Byte) (s : State) : Host.Outcome State Fault Refusal :=
  .next (s.respond .ok data)

/-- "A command that reaches its end without `respond` responds `OK` with data `0x00`" (00_scope.md R9). -/
def finish (s : State) : Host.Outcome State Fault Refusal := respondData 0x00 s

/-- `raise E` (00_scope.md R9), the core's one way to take an error: from the state BEFORE the command,
respond E with data 0x00 and change nothing else (60_exceptions.md R107, R110). There is no trap, no
saved state, no vector and so no return (R111, R112). -/
def raiseError (code : RespCode) (s : State) : Host.Outcome State Fault Refusal :=
  .next (s.respond code 0x00)

/-- A word that decodes to ILLEGAL "has no effect and responds `0x0100`" (30_encoding.md R62), whichever
the reason (60_exceptions.md R107). -/
def illegalWord (_why : IllegalReason) (s : State) : Host.Outcome State Fault Refusal :=
  raiseError .illegal s

/-! ### Resets -/

/-- SRST mask bit 0: the builder's fields to 0 (42_access.md R103). -/
def State.resetBuilder (s : State) : State := s.setBuilder .reset

/-- `clearWorking()` (41_decoder.md R95). -/
def State.clearWorking (s : State) : State := s.setWorking .reset

/-- SRST mask bit 2: result registers and observables to 0 (42_access.md R103). -/
def State.clearResults (s : State) : State := (s.setResult .reset).setObs .reset

/-- PBUF after an assertion of the reset input: unspecified, so free bytes, a fresh row for each assertion
(70_reset_and_hazards.md R123; log entry 5). -/
def State.scramblePbuf (s : State) : State :=
  { s with pbuf := Memory.fill (Config.pbufAfterReset s.resets), resets := s.resets + 1 }

/-- The reset state of 10_state.md R34 on every field of the core; the TX stream is not touched
(70_reset_and_hazards.md R123). -/
def State.resetCore (s : State) : State := s.resetBuilder.clearWorking.clearResults.scramblePbuf

/-- The reset input changes to a level: asserted, it "puts the core in its reset state" (10_state.md R15);
released, the core keeps that state and waits (70_reset_and_hazards.md R123, R125). -/
def State.setResetLevel (s : State) (asserted : Bool) : State :=
  if asserted then s.resetCore.setResetIn true else s.setResetIn false

/-! ### The command port -/

/-- Take the next event that the host presents (10_state.md R15, R16). -/
def nextEvent (s : State) : Option (HostEvent × State) :=
  match s.port with
  | [] => none
  | e :: rest => some (e, s.setPort rest)

/-- The state with a command word presented next and the reset input released. -/
def presentWord (w : Word) (s : State) : State :=
  (s.setPort (.command w :: s.port)).setResetIn false

end Sys2Proof.Machine
end

