-- ==== Sys2Proof/Machine/Flags.lean ====
section
/-! DEFINITION. The core's flags and packed registers. "The core's only flags are the STATUS bits"
(10_state.md R33); no carry, zero or overflow flag exists. -/

namespace Sys2Proof.Machine

/-- The 3-bit encoding of PHASE (R18). -/
def Phase.toBits : Phase → BitVec 3
  | .hunt => 0
  | .sync1 => 1
  | .topic => 2
  | .size => 3
  | .type => 4
  | .payload => 5
  | .cksum => 6
  | .done => 7

/-- The 3-bit encoding of RES (R24). -/
def ResCode.toBits : ResCode → BitVec 3
  | .noResult => 0
  | .noFrame => 1
  | .malformed => 2
  | .battery => 3
  | .weight => 4
  | .unrecog => 5

/-- The 2-bit encoding of MCAUSE (R25). -/
def MCause.toBits : MCause → BitVec 2
  | .noCause => 0
  | .hdrTrunc => 1
  | .length => 2
  | .short => 3

/-- The 2-bit encoding of CKSTAT (R26). -/
def CkStat.toBits : CkStat → BitVec 2
  | .notChecked => 0
  | .absent => 1
  | .matched => 2
  | .mismatched => 3

/-- A one-bit field as a byte. -/
def bit (b : Bool) : Byte := (BitVec.ofBool b).setWidth 8

/-- STATUS (R23): `BBUSY | (BPAR << 1) | (DACTIVE << 2) | (PHASE << 3) | (BVALID << 6) | (WVALID << 7)`. -/
def statusReg (s : State) : Byte :=
  bit s.builder.bbusy ||| bit s.builder.bpar <<< 1 ||| bit s.working.dactive <<< 2
    ||| s.working.phase.toBits.setWidth 8 <<< 3 ||| bit s.obs.bvalid <<< 6 ||| bit s.obs.wvalid <<< 7

/-- DRESULT (R24): `RES | (MCAUSE << 3) | (CKSTAT << 5)`; bit 7 reads 0. -/
def dresultReg (r : ResultRegs) : Byte :=
  r.res.toBits.setWidth 8 ||| r.mcause.toBits.setWidth 8 <<< 3 ||| r.ckstat.toBits.setWidth 8 <<< 5

/-- WCTL (R27): `WEXP | (WNEG << 3)`; bits 7:4 read 0. -/
def wctlReg (o : Observables) : Byte := o.wexp.setWidth 8 ||| bit o.wneg <<< 3

/-- BATTERY (R28): bits 6:0 are the 7-bit `battery`; bit 7 reads 0. -/
def batteryReg (o : Observables) : Byte := o.battery.setWidth 8

/-- RES is 3, 4 or 5: a frame is held (10_state.md R20, 42_access.md R105). -/
def ResCode.isFrame : ResCode → Bool
  | .battery | .weight | .unrecog => true
  | .noResult | .noFrame | .malformed => false

/-- The exact rational `weight = (WNEG = 1 ? -1 : +1) * WMAG / 10^WEXP` (10_state.md R29). -/
def weightValue (o : Observables) : Rat :=
  (if o.wneg then -1 else 1) * (o.wmag.toNat : Rat) / (10 : Rat) ^ o.wexp.toNat

end Sys2Proof.Machine
end

