-- ==== Sys2Proof/Machine/Operands.lean ====
section
/-! DEFINITION. The operand forms: ARG as a register address, as a payload index, as a reset mask
(30_encoding.md R57). ARG as a data byte is the byte itself, "never sign-extended, scaled or shifted". -/

namespace Sys2Proof.Machine

/-- The sixteen registers of the register map (10_state.md R22). -/
inductive RegName where
  | status | beven | bodd | bmsg | dresult | dtopic | dtype | dsize
  | battery | wmagLo | wmagHi | wctl | dcke | dcko | drxcke | drxcko
deriving DecidableEq, Repr

/-- The register map in address order, 0x00 to 0x0F (R22). -/
def regMap : List RegName :=
  [.status, .beven, .bodd, .bmsg, .dresult, .dtopic, .dtype, .dsize,
   .battery, .wmagLo, .wmagHi, .wctl, .dcke, .dcko, .drxcke, .drxcko]

/-- The register at an address; none where the map has none, 0x10 to 0xFF (R22). -/
def regAt (a : Byte) : Option RegName := regMap[a.toNat]?

/-- The byte a register reads (R22 to R28). Every register is read-only and a read has no side effect
(R31, 20_memory.md R40). -/
def regValue (s : State) : RegName → Byte
  | .status => statusReg s
  | .beven => s.builder.beven
  | .bodd => s.builder.bodd
  | .bmsg => s.builder.bmsg
  | .dresult => dresultReg s.result
  | .dtopic => s.result.dtopic
  | .dtype => s.result.dtype
  | .dsize => s.result.dsize
  | .battery => batteryReg s.obs
  | .wmagLo => s.obs.wmag.extractLsb' 0 8
  | .wmagHi => s.obs.wmag.extractLsb' 8 8
  | .wctl => wctlReg s.obs
  | .dcke => s.result.dcke
  | .dcko => s.result.dcko
  | .drxcke => s.result.drxcke
  | .drxcko => s.result.drxcko

/-- The byte of the payload index `i` where RDPAY may read it: a frame is held and `i < DSIZE`
(42_access.md R105). -/
def payloadAt (i : Byte) (s : State) : Option Byte :=
  if s.result.res.isFrame ∧ i < s.result.dsize then some (Memory.read s.pbuf i.toNat) else none

/-- The soft reset of the units a mask selects, in the order of 42_access.md R103: bit 0 builder, bit 1
decoder working state, bit 2 results and observables. -/
def softReset (m : BitVec 3) (s : State) : State :=
  let s := if m.getLsbD 0 then s.resetBuilder else s
  let s := if m.getLsbD 1 then s.clearWorking else s
  if m.getLsbD 2 then s.clearResults else s

end Sys2Proof.Machine
end

