-- ==== Sys2Proof/Machine/Access.lean ====
section
/-! DEFINITION. The access and control commands: NOP, SRST, RDREG, RDPAY (42_access.md). -/

namespace Sys2Proof.Machine

/-- `NOP` (R102). -/
def execNop (s : State) : Host.Outcome State Fault Refusal := finish s

/-- `SRST m` (R103). Nothing is emitted and PBUF is not changed. -/
def execSrst (m : BitVec 3) (s : State) : Host.Outcome State Fault Refusal := finish (softReset m s)

/-- `RDREG a` (R104). -/
def execRdreg (a : Byte) (s : State) : Host.Outcome State Fault Refusal :=
  match regAt a with
  | some r => respondData (regValue s r) s
  | none => raiseError .badreg s

/-- `RDPAY i` (R105): BUSY is tested before RANGE (60_exceptions.md R109). -/
def execRdpay (i : Byte) (s : State) : Host.Outcome State Fault Refusal :=
  if s.working.dactive then raiseError .busy s
  else
    match payloadAt i s with
    | some b => respondData b s
    | none => raiseError .range s

end Sys2Proof.Machine
end

