-- ==== Sys2Proof/Machine/Checksum.lean ====
section
/-! DEFINITION. The alternating checksum (20_memory.md R46, 40_builder.md R76, 41_decoder.md R97): two
sums, over the bytes at even and at odd indices. -/

namespace Sys2Proof.Machine

/-- evenSum: the exact sum of the bytes at indices 0, 2, 4, … (40_builder.md R76). -/
def evenSum : List Byte → Nat
  | [] => 0
  | [b] => b.toNat
  | b :: _ :: bs => b.toNat + evenSum bs

/-- oddSum: the exact sum of the bytes at indices 1, 3, 5, … (40_builder.md R76). -/
def oddSum : List Byte → Nat
  | [] => 0
  | [_] => 0
  | _ :: b :: bs => b.toNat + oddSum bs

/-- `sum & 0xFF`, which is `sum mod 256` (00_scope.md R8). -/
def lowByte (sum : Nat) : Byte := BitVec.ofNat 8 (sum % 256)

/-- The checksum bytes of a region: even sum, then odd sum (20_memory.md R41). -/
def checksum (region : List Byte) : Byte × Byte := (lowByte (evenSum region), lowByte (oddSum region))

/-- The integer that a value of RX_CK_FROM is (00_scope.md R6). -/
def rxCkOffset : RxCkFrom → Nat
  | .from3 => 3
  | .from4 => 4
  | .from5 => 5

/-- The region that the validator sums, from offset RX_CK_FROM to `end` (41_decoder.md R97). -/
def rxRegion (p : RxCkFrom) (wsize wtype : Byte) (payload : List Byte) : List Byte :=
  (if rxCkOffset p ≤ 3 then [wsize] else []) ++ (if rxCkOffset p ≤ 4 then [wtype] else []) ++ payload

/-- `rxChecksum()` (41_decoder.md R97): DCKE and DCKO. -/
def rxChecksum (p : RxCkFrom) (w : Working) (m : Memory) : Byte × Byte :=
  checksum (rxRegion p w.wsize w.wtype (Memory.firstBytes m w.wsize.toNat))

end Sys2Proof.Machine
end

