-- ==== Sys2Proof/Machine/Builder.lean ====
section
/-! DEFINITION. The frame builder: BSTART, BBYTE, BEND (40_builder.md), and the source's function
`buildFrame` that they compute (R76). -/

namespace Sys2Proof.Machine

/-- Open a frame: the fields that BSTART writes (R72). -/
def Builder.opened (t : Byte) : Builder :=
  { bbusy := true, bpar := false, beven := 0, bodd := 0, bmsg := t }

/-- Add one payload byte to the sum its index selects and toggle BPAR (R73). The 8-bit sums wrap. -/
def Builder.accept (b : Byte) (u : Builder) : Builder :=
  if u.bpar then { u with bodd := u.bodd + b, bpar := false }
  else { u with beven := u.beven + b, bpar := true }

/-- Close the frame; BPAR, BEVEN, BODD and BMSG keep their values (R74). -/
def Builder.closed (u : Builder) : Builder := { u with bbusy := false }

/-- `BSTART t` (R72). -/
def execBstart (t : Byte) (s : State) : Host.Outcome State Fault Refusal :=
  if s.builder.bbusy then raiseError .seq s
  else finish ((((s.emit 0xEF).emit 0xDD).emit t).setBuilder (Builder.opened t))

/-- `BBYTE b` (R73). -/
def execBbyte (b : Byte) (s : State) : Host.Outcome State Fault Refusal :=
  if s.builder.bbusy then finish ((s.emit b).setBuilder (s.builder.accept b))
  else raiseError .seq s

/-- `BEND` (R74). -/
def execBend (s : State) : Host.Outcome State Fault Refusal :=
  if s.builder.bbusy then
    finish (((s.emit s.builder.beven).emit s.builder.bodd).setBuilder s.builder.closed)
  else raiseError .seq s

/-- The source's `buildFrame(t, P)` (R76). -/
def buildFrame (t : Byte) (p : List Byte) : List Byte :=
  [0xEF, 0xDD, t] ++ p ++ [lowByte (evenSum p), lowByte (oddSum p)]

end Sys2Proof.Machine
end

