-- ==== Sys2Proof/Machine/Decoder.lean ====
section
/-! DEFINITION. The end of a buffer: outcome, payload decode, commit, checksum validator and DEND
(41_decoder.md R86 to R98). -/

namespace Sys2Proof.Machine

/-- `classify(WTOPIC, WTYPE, WSIZE)`, tested in the order of R91; a weight frame with sizeField below 6
is SHORT (R92). -/
def classify (wtopic wtype wsize : Byte) : ResCode × MCause :=
  if wtopic = 0x08 then (.battery, .noCause)
  else if wtopic = 0x0C ∧ wtype = 0x05 then
    if 6 ≤ wsize then (.weight, .noCause) else (.malformed, .short)
  else (.unrecog, .noCause)

/-- `outcome(PHASE, WTOPIC, WTYPE, WSIZE)`, by the phase the buffer ended in (R87, R93). -/
def endOutcome (w : Working) : ResCode × MCause :=
  match w.phase with
  | .hunt | .sync1 => (.noFrame, .noCause)
  | .topic | .size => (.malformed, .hdrTrunc)
  | .type | .payload => (.malformed, .length)
  | .cksum | .done => classify w.wtopic w.wtype w.wsize

/-- CKSTAT of a frame result (R94): ABSENT until both checksum bytes were received, then by comparison with
the recomputed bytes `ck`. -/
def ckStatus (w : Working) (ck : Byte × Byte) : CkStat :=
  if w.ckcnt < 2 then .absent
  else if w.wck0 = ck.1 ∧ w.wck1 = ck.2 then .matched else .mismatched

/-- `commitResult(res, mc)` (R94): the result registers that DEND writes. -/
def commitResult (p : RxCkFrom) (w : Working) (m : Memory) (res : ResCode) (mc : MCause) : ResultRegs :=
  if res.isFrame then
    { res := res, mcause := mc, ckstat := ckStatus w (rxChecksum p w m),
      dtopic := w.wtopic, dtype := w.wtype, dsize := w.wsize,
      dcke := (rxChecksum p w m).1, dcko := (rxChecksum p w m).2,
      drxcke := if 1 ≤ w.ckcnt then w.wck0 else 0,
      drxcko := if w.ckcnt = 2 then w.wck1 else 0 }
  else { ResultRegs.reset with res := res, mcause := mc }

/-- `unitExp(u)`, the decimal exponent of the unit's divisor (R90); an unrecognized unit passes undivided. -/
def unitExp (u : Byte) : BitVec 3 :=
  if u = 0x01 then 1 else if u = 0x02 then 2 else if u = 0x03 then 3 else if u = 0x04 then 4 else 0

/-- `commitBattery()` (R88): the type byte with bit 7 dropped. -/
def commitBattery (w : Working) (o : Observables) : Observables :=
  { o with battery := w.wtype.extractLsb' 0 7, bvalid := true }

/-- `PBUF[0] | (PBUF[1] << 8)`: rawMagnitude, little-endian (R89). -/
def rawMagnitude (lo hi : Byte) : BitVec 16 := lo.setWidth 16 ||| hi.setWidth 16 <<< 8

/-- `commitWeight()` (R89). -/
def commitWeight (m : Memory) (o : Observables) : Observables :=
  { o with
    wmag := rawMagnitude (Memory.read m 0) (Memory.read m 1)
    wexp := unitExp (Memory.read m 4)
    wneg := Memory.read m 5 &&& 0x02 != 0
    wvalid := true }

/-- The observables that a DEND with this result leaves (R86, R95): BATTERY and WEIGHT write theirs, every
other result writes none. -/
def commitObservables (res : ResCode) (w : Working) (m : Memory) (o : Observables) : Observables :=
  match res with
  | .battery => commitBattery w o
  | .weight => commitWeight m o
  | .noResult | .noFrame | .malformed | .unrecog => o

/-- `DEND` (R86): outcome, commit, clear the scanner. It responds OK whatever the outcome
(60_exceptions.md R108). -/
def execDend (s : State) : Host.Outcome State Fault Refusal :=
  let (res, mc) := endOutcome s.working
  finish (((s.setResult (commitResult s.rxCkFrom s.working s.pbuf res mc)).setObs
    (commitObservables res s.working s.pbuf s.obs)).clearWorking)

end Sys2Proof.Machine
end

