-- ==== Sys2Proof/Machine/Scanner.lean ====
section
/-! DEFINITION. The sync pattern scanner and frame parser: the transition table of 41_decoder.md R83,
and DBYTE (R84). -/

namespace Sys2Proof.Machine

/-- One row of the table of R83: what a byte does to the working state and the payload RAM. The two
faults are states that no run reaches (log entry 7). -/
def scanByte (b : Byte) (w : Working) (m : Memory) : Except Fault (Working × Memory) :=
  match w.phase with
  | .hunt => .ok ({ w with phase := if b = 0xEF then .sync1 else .hunt }, m)
  | .sync1 =>
    .ok ({ w with phase := if b = 0xDD then .topic else if b = 0xEF then .sync1 else .hunt }, m)
  | .topic => .ok ({ w with wtopic := b, phase := .size }, m)
  | .size => .ok ({ w with wsize := b, phase := .type }, m)
  | .type => .ok ({ w with wtype := b, wcnt := 0, phase := if 0 < w.wsize then .payload else .cksum }, m)
  | .payload =>
    if w.wcnt.toNat < pbufEntries then
      .ok ({ w with wcnt := w.wcnt + 1, phase := if w.wcnt + 1 = w.wsize then .cksum else .payload },
        Memory.write m w.wcnt.toNat b)
    else .error .payloadIndex
  | .cksum =>
    if w.ckcnt = 0 then .ok ({ w with wck0 := b, ckcnt := 1 }, m)
    else if w.ckcnt = 1 then .ok ({ w with wck1 := b, ckcnt := 2, phase := .done }, m)
    else .error .noScannerRow
  | .done => .ok (w, m)

/-- `DBYTE b` (R84): DACTIVE becomes 1, then the scanner steps on `b`. -/
def execDbyte (b : Byte) (s : State) : Host.Outcome State Fault Refusal :=
  match scanByte b { s.working with dactive := true } s.pbuf with
  | .ok (w, m) => finish ((s.setWorking w).setPbuf m)
  | .error f => .fault f

end Sys2Proof.Machine
end

