-- ==== Sys2Proof/Machine/Dispatch.lean ====
section
/-! DEFINITION. One arm for each command: its meaning. -/

namespace Sys2Proof.Machine

def exec (i : Instr) (s : State) : Host.Outcome State Fault Refusal :=
  match i with
  | .nop => Sys2Proof.Machine.execNop s
  | .srst m => Sys2Proof.Machine.execSrst m s
  | .bstart t => Sys2Proof.Machine.execBstart t s
  | .bbyte b => Sys2Proof.Machine.execBbyte b s
  | .bend => Sys2Proof.Machine.execBend s
  | .dbyte b => Sys2Proof.Machine.execDbyte b s
  | .dend => Sys2Proof.Machine.execDend s
  | .rdreg a => Sys2Proof.Machine.execRdreg a s
  | .rdpay k => Sys2Proof.Machine.execRdpay k s

end Sys2Proof.Machine
end

