-- ==== Sys2Proof/Machine/Step.lean ====
section
/-! DEFINITION. One step of the core: the execution of one host command, or one change of the reset
input (10_state.md R13, R15). -/

namespace Sys2Proof.Machine

/-- Execute one command word: decode it (30_encoding.md R65), then run it or respond ILLEGAL. -/
def runWord (w : Word) (s : State) : Host.Outcome State Fault Refusal :=
  match decodeCmd w with
  | .cmd i => exec i s
  | .illegal why => illegalWord why s

/-- One step. With nothing presented the core has no step (10_state.md R13; log entry 1); "while the reset
input is asserted the core executes no command" (70_reset_and_hazards.md R123; log entry 3). -/
def step (s : State) : Host.Outcome State Fault Refusal :=
  match nextEvent s with
  | none => .refused .noCommand
  | some (.reset asserted, s') => .next (s'.setResetLevel asserted)
  | some (.command w, s') => if s'.resetIn then .refused .commandDuringReset else runWord w s'

/-- `s` with the instruction whose bits are `w` (those at `nbits` and above are 0) presented next on the
command port, the reset input released, so that the next step runs it (log entry 8). -/
def State.withFetchWord (s : State) (nbits w : Nat) : State :=
  presentWord (BitVec.ofNat 16 (w % 2 ^ nbits)) s

end Sys2Proof.Machine
end

