-- ==== Sys2Proof/Machine/Pseudo.lean ====
section
/-! DEFINITION. The pseudo-instructions of 30_encoding.md R67 and R68, as the commands they expand to,
and the execution of a sequence of commands in order (20_memory.md R42). -/

namespace Sys2Proof.Machine

/-- `BUILD t, [p0, ..., pN-1]` (R67). -/
def buildCommands (t : Byte) (p : List Byte) : List Instr := .bstart t :: (p.map .bbyte ++ [.bend])

/-- `DECODE [c0, ..., cL-1]` (R67). -/
def decodeCommands (buf : List Byte) : List Instr := buf.map .dbyte ++ [.dend]

/-- `RDWEIGHT` (R67): WMAG_LO, WMAG_HI, WCTL. -/
def rdWeightCommands : List Instr := [.rdreg 0x09, .rdreg 0x0A, .rdreg 0x0B]

/-- `RESET_ALL` (R67). -/
def resetAllCommands : List Instr := [.srst 7]

/-- `HEARTBEAT` (R68). -/
def heartbeatCommands : List Instr := buildCommands 0 [0x02, 0x00]

/-- `TARE` (R68). -/
def tareCommands : List Instr := buildCommands 4 [0x00]

/-- `SETTINGS` (R68): 16 zero bytes. -/
def settingsCommands : List Instr := buildCommands 6 (List.replicate 16 0x00)

/-- `TIMER_START` (R68). -/
def timerStartCommands : List Instr := buildCommands 13 [0x00, 0x00]

/-- `TIMER_RESET` (R68). -/
def timerResetCommands : List Instr := buildCommands 13 [0x00, 0x01]

/-- `TIMER_STOP` (R68). -/
def timerStopCommands : List Instr := buildCommands 13 [0x00, 0x02]

/-- Commands take effect one at a time, in order, each seeing the effects of those before it (R42). -/
def execAll : List Instr → State → Host.Outcome State Fault Refusal
  | [], s => .next s
  | i :: is, s =>
    match exec i s with
    | .next s' => execAll is s'
    | .fault f => .fault f
    | .refused r => .refused r

end Sys2Proof.Machine
end

