-- ==== Sys2Proof/Machine/Asm.lean ====
section
/-! DEFINITION. The assembler and disassembler of 30_encoding.md R66 to R69, over lists of characters.
They "add no hardware" (92_eei_decisions.md D25): nothing in the machine calls them. What R66 leaves open of
the text's form is log entry 11. -/

namespace Sys2Proof.Machine

/-- A line, or a piece of one. -/
abbrev Text := List Char

/-! ### Reading a line -/

/-- A finished piece, if it holds anything. -/
def flushToken (cur : Text) : List Text := if cur = [] then [] else [cur]

/-- The pieces of a line: blanks separate, `;` starts a comment to the end of the line (R66), and each of
`,` `[` `]` `|` is a piece of its own. -/
def tokensFrom : Text → Text → List Text
  | [], cur => flushToken cur
  | c :: cs, cur =>
    if c = ';' then flushToken cur
    else if c = ' ' ∨ c = '\t' ∨ c = '\r' then flushToken cur ++ tokensFrom cs []
    else if c = ',' ∨ c = '[' ∨ c = ']' ∨ c = '|' then flushToken cur ++ [c] :: tokensFrom cs []
    else tokensFrom cs (cur ++ [c])

/-- The value of a digit, hexadecimal letters in either case. -/
def digitValue (c : Char) : Option Nat :=
  match "0123456789ABCDEF".toList.idxOf? c with
  | some d => some d
  | none => "0123456789abcdef".toList.idxOf? c

/-- The number that digits of a base spell. -/
def readDigits (base : Nat) : Text → Nat → Option Nat
  | [], acc => some acc
  | c :: cs, acc =>
    match digitValue c with
    | some d => if d < base then readDigits base cs (acc * base + d) else none
    | none => none

/-- A number: `0x..` hexadecimal, `0b..` binary or decimal (R66). -/
def readNumber : Text → Option Nat
  | '0' :: 'x' :: c :: cs => readDigits 16 (c :: cs) 0
  | '0' :: 'b' :: c :: cs => readDigits 2 (c :: cs) 0
  | c :: cs => readDigits 10 (c :: cs) 0
  | [] => none

/-- A number below a bound. -/
def readBelow (bound : Nat) (t : Text) : Option Nat :=
  (readNumber t).bind fun n => if n < bound then some n else none

/-- An operand in 0 to 255 (R66). -/
def byteOperand (t : Text) : Option Byte := (readBelow 256 t).map (BitVec.ofNat 8)

/-- The register names of 10_state.md R22, in address order. -/
def regNames : List Text :=
  ["STATUS".toList, "BEVEN".toList, "BODD".toList, "BMSG".toList, "DRESULT".toList, "DTOPIC".toList,
   "DTYPE".toList, "DSIZE".toList, "BATTERY".toList, "WMAG_LO".toList, "WMAG_HI".toList, "WCTL".toList,
   "DCKE".toList, "DCKO".toList, "DRXCKE".toList, "DRXCKO".toList]

/-- RDREG's operand: a register name or a number (R66). -/
def regOperand (t : Text) : Option Byte :=
  match regNames.idxOf? t with
  | some a => some (BitVec.ofNat 8 a)
  | none => byteOperand t

/-- The mask bit of a letter of SRST (R66). -/
def letterMask (t : Text) : Option (BitVec 3) :=
  if t = ['B'] then some 1 else if t = ['D'] then some 2 else if t = ['R'] then some 4 else none

/-- A `|`-joined list of letters (R66). -/
def lettersMask : List Text → Option (BitVec 3)
  | [t] => letterMask t
  | t :: ['|'] :: ts => (letterMask t).bind fun m => (lettersMask ts).map (m ||| ·)
  | _ => none

/-- SRST's operand: a number 0 to 7 or a list of letters (R66). -/
def maskOperand (ts : List Text) : Option (BitVec 3) :=
  match ts with
  | [t] =>
    match readBelow 8 t with
    | some n => some (BitVec.ofNat 3 n)
    | none => letterMask t
  | _ => lettersMask ts

/-- The items of a bracketed list, up to its closing bracket. -/
def listItems : List Text → Option (List Byte)
  | [t, [']']] => (byteOperand t).map fun b => [b]
  | t :: [','] :: ts => (byteOperand t).bind fun b => (listItems ts).map (b :: ·)
  | _ => none

/-- A list operand `[p0, ..., pN-1]`, N at least 0 (R67). -/
def listOperand : List Text → Option (List Byte)
  | [['['], [']']] => some []
  | ['['] :: ts => listItems ts
  | _ => none

/-- A line without operands. -/
def noOperand (args : List Text) (is : List Instr) : Option (List Instr) :=
  if args = [] then some is else none

/-- A line with one operand. -/
def oneOperand (args : List Text) (read : Text → Option Byte) (mk : Byte → Instr) :
    Option (List Instr) :=
  match args with
  | [t] => (read t).map fun b => [mk b]
  | _ => none

/-- `BUILD t, [..]` (R67). -/
def buildOperands (args : List Text) : Option (List Instr) :=
  match args with
  | t :: [','] :: ts => (byteOperand t).bind fun b => (listOperand ts).map (buildCommands b)
  | _ => none

/-- The commands of a mnemonic or a pseudo-instruction (R66, R67, R68). -/
def assembleCommand (m : Text) (args : List Text) : Option (List Instr) :=
  if m = "NOP".toList then noOperand args [.nop]
  else if m = "SRST".toList then (maskOperand args).map fun k => [.srst k]
  else if m = "BSTART".toList then oneOperand args byteOperand .bstart
  else if m = "BBYTE".toList then oneOperand args byteOperand .bbyte
  else if m = "BEND".toList then noOperand args [.bend]
  else if m = "DBYTE".toList then oneOperand args byteOperand .dbyte
  else if m = "DEND".toList then noOperand args [.dend]
  else if m = "RDREG".toList then oneOperand args regOperand .rdreg
  else if m = "RDPAY".toList then oneOperand args byteOperand .rdpay
  else if m = "BUILD".toList then buildOperands args
  else if m = "DECODE".toList then (listOperand args).map decodeCommands
  else if m = "RDWEIGHT".toList then noOperand args rdWeightCommands
  else if m = "RESET_ALL".toList then noOperand args resetAllCommands
  else if m = "HEARTBEAT".toList then noOperand args heartbeatCommands
  else if m = "TARE".toList then noOperand args tareCommands
  else if m = "SETTINGS".toList then noOperand args settingsCommands
  else if m = "TIMER_START".toList then noOperand args timerStartCommands
  else if m = "TIMER_RESET".toList then noOperand args timerResetCommands
  else if m = "TIMER_STOP".toList then noOperand args timerStopCommands
  else none

/-- The words of a line's pieces; `.word 0xHHHH` is a word as it stands (R69). R69 shows that form only, as
what is printed. DESIGN CHOICE, log entry 11: as input the operand of `.word` is any number of R66 (hexadecimal,
binary or decimal, of any digit count) below 65536. -/
def assembleTokens : List Text → Option (List Word)
  | [] => some []
  | m :: args =>
    if m = ".word".toList then
      match args with
      | [t] => (readBelow 65536 t).map fun n => [BitVec.ofNat 16 n]
      | _ => none
    else (assembleCommand m args).map fun is => is.map encode

/-- The words of one line (R66). -/
def assembleLine (line : Text) : Option (List Word) := assembleTokens (tokensFrom line [])

/-- The words of a program, one command a line (R66). -/
def assemble : List Text → Option (List Word)
  | [] => some []
  | line :: lines => (assembleLine line).bind fun ws => (assemble lines).map (ws ++ ·)

/-! ### Printing a word -/

/-- A hexadecimal digit. -/
def hexDigit (n : Nat) : Char := "0123456789ABCDEF".toList.getD n '0'

/-- A byte in two-digit hexadecimal (R69). -/
def hexByte (b : Byte) : Text := ['0', 'x', hexDigit (b.toNat / 16), hexDigit (b.toNat % 16)]

/-- A command, with its ARG in two-digit hexadecimal where it has an operand (R69). -/
def printInstr : Instr → Text
  | .nop => "NOP".toList
  | .srst m => "SRST ".toList ++ hexByte (m.setWidth 8)
  | .bstart t => "BSTART ".toList ++ hexByte t
  | .bbyte b => "BBYTE ".toList ++ hexByte b
  | .bend => "BEND".toList
  | .dbyte b => "DBYTE ".toList ++ hexByte b
  | .dend => "DEND".toList
  | .rdreg a => "RDREG ".toList ++ hexByte a
  | .rdpay i => "RDPAY ".toList ++ hexByte i

/-- Disassembly: "an ILLEGAL word prints as `.word 0xHHHH`" (R69). -/
def disassemble (w : Word) : Text :=
  match decodeCmd w with
  | .cmd i => printInstr i
  | .illegal _ =>
    ".word ".toList ++ hexByte (opField w)
      ++ [hexDigit ((argField w).toNat / 16), hexDigit ((argField w).toNat % 16)]

end Sys2Proof.Machine
end

