-- ==== Sys2Proof/Machine/Reference.lean ====
section
/-! DEFINITION. The decode as one function of the whole buffer, `decodeRef` of 41_decoder.md R99: the
clear definition that the streamed commands are to agree with. Nothing in the machine calls it. -/

namespace Sys2Proof.Machine

/-- `Frame{topic, type, payload}` with its sizeField and the checksum bytes present in the buffer (R99). -/
structure RefFrame where
  /-- `buf[start+2]`. -/
  topic : Byte
  /-- `buf[start+4]`. -/
  type : Byte
  /-- `buf[start+3]`. -/
  sizeField : Byte
  /-- payloadMessage, `buf[start+5, end)`. -/
  payload : List Byte
  /-- `buf[end]`, if the buffer has it. -/
  ck0 : Option Byte
  /-- `buf[end+1]`, if the buffer has it. -/
  ck1 : Option Byte
deriving DecidableEq, Repr

/-- What `decodeRef` returns (R99). -/
inductive RefResult where
  /-- (NOFRAME, NONE). -/
  | noFrame
  /-- (MALFORMED, cause). -/
  | malformed (cause : MCause)
  /-- BATTERY with the battery value. -/
  | battery (f : RefFrame) (value : BitVec 7)
  /-- WEIGHT with rawMagnitude, exponent and sign. -/
  | weight (f : RefFrame) (magnitude : BitVec 16) (exp : BitVec 3) (neg : Bool)
  /-- UNRECOG. -/
  | unrecog (f : RefFrame)
deriving DecidableEq, Repr

/-- The least `i` with `i + 1 < len`, `buf[i] = 0xEF` and `buf[i+1] = 0xDD` (R99, R85). -/
def findSync : List Byte → Option Nat
  | [] => none
  | [_] => none
  | a :: b :: rest => if a = 0xEF ∧ b = 0xDD then some 0 else (findSync (b :: rest)).map (· + 1)

/-- `buf[i]` (00_scope.md R8), used only where `i < len`. -/
def byteOf (buf : List Byte) (i : Nat) : Byte := buf.getD i 0

/-- The field decode of R99, once the frame is known to lie in the buffer. -/
def refClassify (f : RefFrame) : RefResult :=
  if f.topic = 0x08 then .battery f (f.type.extractLsb' 0 7)
  else if f.topic = 0x0C ∧ f.type = 0x05 then
    if f.sizeField.toNat < 6 then .malformed .short
    else .weight f (rawMagnitude (byteOf f.payload 0) (byteOf f.payload 1)) (unitExp (byteOf f.payload 4))
      (byteOf f.payload 5 &&& 0x02 != 0)
  else .unrecog f

/-- The frame that starts at `start` (20_memory.md R47). -/
def refFrame (buf : List Byte) (start : Nat) : RefFrame :=
  let sizeField := byteOf buf (start + 3)
  let stop := start + sizeField.toNat + 5
  { topic := byteOf buf (start + 2), type := byteOf buf (start + 4), sizeField := sizeField,
    payload := (buf.drop (start + 5)).take sizeField.toNat, ck0 := buf[stop]?, ck1 := buf[stop + 1]? }

/-- `decodeRef(buf)` (R99). -/
def decodeRef (buf : List Byte) : RefResult :=
  match findSync buf with
  | none => .noFrame
  | some start =>
    if start + 3 ≥ buf.length then .malformed .hdrTrunc
    else if start + (byteOf buf (start + 3)).toNat + 5 > buf.length then .malformed .length
    else refClassify (refFrame buf start)

/-- The result registers of a frame result (R94), from the frame itself. -/
def refFrameRegs (p : RxCkFrom) (res : ResCode) (f : RefFrame) : ResultRegs :=
  let ck := checksum (rxRegion p f.sizeField f.type f.payload)
  { res := res, mcause := .noCause,
    ckstat := match f.ck0, f.ck1 with
      | some c0, some c1 => if c0 = ck.1 ∧ c1 = ck.2 then .matched else .mismatched
      | _, _ => .absent
    dtopic := f.topic, dtype := f.type, dsize := f.sizeField, dcke := ck.1, dcko := ck.2,
    drxcke := f.ck0.getD 0, drxcko := f.ck1.getD 0 }

/-- The result registers that a DEND commits for a result of `decodeRef` (R94, R99). -/
def RefResult.regs (p : RxCkFrom) : RefResult → ResultRegs
  | .noFrame => { ResultRegs.reset with res := .noFrame }
  | .malformed cause => { ResultRegs.reset with res := .malformed, mcause := cause }
  | .battery f _ => refFrameRegs p .battery f
  | .weight f _ _ _ => refFrameRegs p .weight f
  | .unrecog f => refFrameRegs p .unrecog f

/-- The observables that a DEND leaves for a result of `decodeRef` (R95, R99). -/
def RefResult.observables (o : Observables) : RefResult → Observables
  | .battery _ value => { o with battery := value, bvalid := true }
  | .weight _ magnitude exp neg => { o with wmag := magnitude, wexp := exp, wneg := neg, wvalid := true }
  | .noFrame | .malformed _ | .unrecog _ => o

/-- The payload of a frame result, which PBUF then holds (R99). -/
def RefResult.payload : RefResult → List Byte
  | .battery f _ | .weight f _ _ _ | .unrecog f => f.payload
  | .noFrame | .malformed _ => []

end Sys2Proof.Machine
end

