-- ==== Sys2Proof/Safety.lean ====
section
/-! DEFINITION. The words that statements about the core use: the states that runs stay in, what a
response may be, and what of a state can be observed. -/

namespace Sys2Proof.Machine

/-! ### The invariant -/

/-- The decoder working state of a buffer fed so far (10_state.md R18, 41_decoder.md R82, R83). -/
structure Working.Inv (w : Working) : Prop where
  /-- DACTIVE is 1 exactly when the buffer fed so far is not empty (R82); the empty buffer leaves every field cleared. -/
  idle : w.dactive = false → w = Working.reset
  /-- Before the topic byte nothing is captured. -/
  beforeTopic : w.phase = .hunt ∨ w.phase = .sync1 ∨ w.phase = .topic → w.wtopic = 0 ∧ w.wsize = 0
  /-- Before the sizeField byte, no sizeField. -/
  beforeSize : w.phase = .size → w.wsize = 0
  /-- Before the type byte, no type and no payload. -/
  beforeType : w.phase = .hunt ∨ w.phase = .sync1 ∨ w.phase = .topic ∨ w.phase = .size ∨ w.phase = .type →
    w.wtype = 0 ∧ w.wcnt = 0
  /-- "In PAYLOAD, `WCNT < WSIZE <= 255`" (R83). -/
  inPayload : w.phase = .payload → w.wcnt < w.wsize
  /-- After the payload, all of it has been received. -/
  afterPayload : w.phase = .cksum ∨ w.phase = .done → w.wcnt = w.wsize
  /-- Before CKSUM, no checksum byte. -/
  beforeCksum : w.phase ≠ .cksum → w.phase ≠ .done → w.ckcnt = 0 ∧ w.wck0 = 0
  /-- In CKSUM, at most one checksum byte. -/
  inCksum : w.phase = .cksum → w.ckcnt < 2 ∧ (w.ckcnt = 0 → w.wck0 = 0)
  /-- In DONE, both. -/
  atDone : w.phase = .done → w.ckcnt = 2
  /-- The second checksum byte comes only with DONE. -/
  beforeDone : w.phase ≠ .done → w.wck1 = 0

/-- The result registers of some DEND, or none (10_state.md R20, R24, R25, R26). -/
structure ResultRegs.Inv (r : ResultRegs) : Prop where
  /-- MCAUSE "is nonzero exactly when RES = 2" (R25). -/
  cause : r.mcause ≠ .noCause ↔ r.res = .malformed
  /-- CKSTAT is NOTCHECKED exactly when RES is not 3, 4 or 5 (R26). -/
  checked : r.ckstat ≠ .notChecked ↔ r.res.isFrame = true
  /-- The frame view is 0 when RES is not 3, 4 or 5 (R20). -/
  noFrameView : r.res.isFrame = false →
    r.dtopic = 0 ∧ r.dtype = 0 ∧ r.dsize = 0 ∧ r.dcke = 0 ∧ r.dcko = 0 ∧ r.drxcke = 0 ∧ r.drxcko = 0
  /-- BATTERY is topic 0x08 (41_decoder.md R91). -/
  batteryFrame : r.res = .battery → r.dtopic = 0x08
  /-- WEIGHT is topic 0x0C, type 0x05, sizeField at least 6 (R91). -/
  weightFrame : r.res = .weight → r.dtopic = 0x0C ∧ r.dtype = 0x05 ∧ 6 ≤ r.dsize
  /-- UNRECOG is any other pair (R91). -/
  unrecogFrame : r.res = .unrecog → r.dtopic ≠ 0x08 ∧ ¬ (r.dtopic = 0x0C ∧ r.dtype = 0x05)
  /-- ABSENT: the second checksum byte was not received (R26). -/
  ckAbsent : r.ckstat = .absent → r.drxcko = 0
  /-- MATCH: both received bytes equal the recomputed ones (R26). -/
  ckMatch : r.ckstat = .matched → r.drxcke = r.dcke ∧ r.drxcko = r.dcko
  /-- MISMATCH: at least one differs (R26). -/
  ckMismatch : r.ckstat = .mismatched → r.drxcke ≠ r.dcke ∨ r.drxcko ≠ r.dcko

/-- The observables of some sequence of decodes (10_state.md R21, R27, R34). -/
structure Observables.Inv (o : Observables) : Prop where
  /-- WEXP takes only the values 0 to 4 (R27). -/
  exponent : o.wexp ≤ 4
  /-- BATTERY keeps its reset value until a decode writes it (R21, R34). -/
  batteryUnset : o.bvalid = false → o.battery = 0
  /-- WMAG, WEXP and WNEG keep their reset values until a decode writes them (R21, R34). -/
  weightUnset : o.wvalid = false → o.wmag = 0 ∧ o.wexp = 0 ∧ o.wneg = false

/-- A response word that the core produces: one of the six codes (30_encoding.md R59), and DATA 0x00
unless the code is OK (R58). -/
def isResponse (r : Word) : Prop :=
  (∃ data, r = responseWord .ok data) ∨ ∃ code, code ≠ .ok ∧ r = responseWord code 0x00

/-- The invariant of the core: it holds at reset and every step keeps it. -/
structure State.Inv (s : State) : Prop where
  /-- The payload RAM keeps its canonical form, so every index listed is 0 to 254 (10_state.md R19). -/
  memory : Memory.wf s.pbuf
  /-- Decoder working state. -/
  working : s.working.Inv
  /-- Result registers. -/
  result : s.result.Inv
  /-- Observables. -/
  observables : s.obs.Inv
  /-- The last result is BATTERY only with BATTERY written, from the frame's type byte (41_decoder.md R88). -/
  batteryHeld : s.result.res = .battery →
    s.obs.bvalid = true ∧ s.obs.battery = s.result.dtype.extractLsb' 0 7
  /-- The last result is WEIGHT only with the weight written (41_decoder.md R89). -/
  weightHeld : s.result.res = .weight → s.obs.wvalid = true
  /-- While the reset input is asserted, every field has its reset value (70_reset_and_hazards.md R123). -/
  inReset : s.resetIn = true →
    s.builder = .reset ∧ s.working = .reset ∧ s.result = .reset ∧ s.obs = .reset
  /-- Only legal response words have been returned (30_encoding.md R58, R59). -/
  responses : ∀ r ∈ s.responses, isResponse r

/-! ### Groups of commands -/

/-- Builder commands: BSTART, BBYTE, BEND (10_state.md R32). -/
def isBuilderCommand : Instr → Bool
  | .bstart _ | .bbyte _ | .bend => true
  | .nop | .srst _ | .dbyte _ | .dend | .rdreg _ | .rdpay _ => false

/-- Decoder commands: DBYTE, DEND (10_state.md R32). -/
def isDecoderCommand : Instr → Bool
  | .dbyte _ | .dend => true
  | .nop | .srst _ | .bstart _ | .bbyte _ | .bend | .rdreg _ | .rdpay _ => false

/-- Commands that never change the core: NOP, RDREG, RDPAY (42_access.md R106). -/
def isReadCommand : Instr → Bool
  | .nop | .rdreg _ | .rdpay _ => true
  | .srst _ | .bstart _ | .bbyte _ | .bend | .dbyte _ | .dend => false

/-- SRST with mask bit 2, which clears results and observables (42_access.md R103). -/
def clearsResults : Instr → Bool
  | .srst m => m.getLsbD 2
  | .nop | .bstart _ | .bbyte _ | .bend | .dbyte _ | .dend | .rdreg _ | .rdpay _ => false

/-- The response code that 60_exceptions.md R107 gives a word, ILLEGAL first and BUSY before RANGE (R109). -/
def codeByCause (d : Decoded) (s : State) : RespCode :=
  match d with
  | .illegal _ => .illegal
  | .cmd (.bstart _) => if s.builder.bbusy then .seq else .ok
  | .cmd (.bbyte _) => if s.builder.bbusy then .ok else .seq
  | .cmd .bend => if s.builder.bbusy then .ok else .seq
  | .cmd (.rdreg a) => if 0x10 ≤ a then .badreg else .ok
  | .cmd (.rdpay i) =>
    if s.working.dactive then .busy
    else if s.result.res = .battery ∨ s.result.res = .weight ∨ s.result.res = .unrecog then
      (if i < s.result.dsize then .ok else .range)
    else .range
  | .cmd .nop | .cmd (.srst _) | .cmd (.dbyte _) | .cmd .dend => .ok

/-! ### Where the sync is -/

/-- `c_j = 0xEF` and `c_(j+1) = 0xDD` (41_decoder.md R85). -/
def SyncAt (cs : List Byte) (j : Nat) : Prop := cs[j]? = some 0xEF ∧ cs[j + 1]? = some 0xDD

/-- `start`: the least such `j` (41_decoder.md R85). -/
def FirstSyncAt (cs : List Byte) (start : Nat) : Prop :=
  SyncAt cs start ∧ ∀ j < start, ¬ SyncAt cs j

/-- PHASE is 2 or more: the sync has been found (41_decoder.md R85, R96). -/
def Phase.pastSync : Phase → Bool
  | .hunt | .sync1 => false
  | .topic | .size | .type | .payload | .cksum | .done => true

/-! ### What can be observed -/

/-- The payload RAM entries whose contents matter: those this buffer has written, and those of a held frame
(10_state.md R35). -/
def LiveEntry (s : State) (i : Nat) : Prop :=
  i < s.working.wcnt.toNat ∨ (s.result.res.isFrame = true ∧ i < s.result.dsize.toNat)

/-- Two states that differ at most in payload RAM entries that do not matter (and in the model's own counter
of resets). -/
structure SameButDeadPbuf (s t : State) : Prop where
  builder : s.builder = t.builder
  working : s.working = t.working
  result : s.result = t.result
  obs : s.obs = t.obs
  tx : s.tx = t.tx
  responses : s.responses = t.responses
  resetIn : s.resetIn = t.resetIn
  rxCkFrom : s.rxCkFrom = t.rxCkFrom
  port : s.port = t.port
  live : ∀ i, LiveEntry s i → Memory.read s.pbuf i = Memory.read t.pbuf i

/-- Result registers that differ at most in what the validator computes: CKSTAT, DCKE, DCKO. -/
def ResultRegs.sameButChecksum (r q : ResultRegs) : Prop :=
  { r with ckstat := q.ckstat, dcke := q.dcke, dcko := q.dcko } = q

/-- Two states that differ at most in RX_CK_FROM, in what the validator computed with it, and in the
responses that showed it (00_scope.md R6). -/
structure SameButValidator (s t : State) : Prop where
  builder : s.builder = t.builder
  working : s.working = t.working
  pbuf : s.pbuf = t.pbuf
  result : s.result.sameButChecksum t.result
  obs : s.obs = t.obs
  tx : s.tx = t.tx
  resetIn : s.resetIn = t.resetIn
  port : s.port = t.port
  resets : s.resets = t.resets

end Sys2Proof.Machine
end

