-- ==== Sys2Proof/Certificates/Slice0/Obligations.lean ====
section
/-! DEFINITION. The statements for the provers. "Next" is `Host.Outcome.next`; a response word is CODE
then DATA (30_encoding.md R58), so `0x0000` is OK with data 0x00 and `0x0200` is SEQ. -/

open Sys2Proof Sys2Proof.Machine

/-! ### Encoding -/

/-- R60, R65: the decoder reads back every command that the encoder writes, and the encoder writes back
every word that decodes. -/
def Obligations.DecodeEncodeAgree : Prop :=
  (∀ i : Instr, decodeCmd (encode i) = .cmd i) ∧
    ∀ (w : Word) (i : Instr), decodeCmd w = .cmd i → encode i = w

/-- R60: a word that matches a row of the opcode map by match and mask matches that row alone and decodes to
the row's command; a word that matches none is ILLEGAL. -/
def Obligations.WordMatchesOneRowOrIsIllegal : Prop :=
  ∀ w : Word,
    (∃ r i, opRows.filter (·.isCommandOf w) = [r] ∧ wordWellFormed w = true ∧
      decodeCmd w = .cmd i ∧ i.mnemonic = r.mnemonic) ∨
    (opRows.filter (·.isCommandOf w) = [] ∧ wordWellFormed w = false ∧
      ∃ why, decodeCmd w = .illegal why)

/-- R61: a reserved ARG bit makes the word ILLEGAL. -/
def Obligations.ReservedArgBitsAreIllegal : Prop :=
  ∀ arg : Byte,
    (arg ≠ 0x00 → decodeCmd (0x00#8 ++ arg) = .illegal (.reservedArgBits 0x00 arg) ∧
      decodeCmd (0x12#8 ++ arg) = .illegal (.reservedArgBits 0x12 arg) ∧
      decodeCmd (0x21#8 ++ arg) = .illegal (.reservedArgBits 0x21 arg)) ∧
    (arg.extractLsb' 3 5 ≠ 0 → decodeCmd (0x01#8 ++ arg) = .illegal (.reservedArgBits 0x01 arg))

/-- R62: an undefined opcode is ILLEGAL; an ILLEGAL word has no effect and responds 0x0100. -/
def Obligations.UndefinedOpcodesAreIllegalWithoutEffect : Prop :=
  (∀ op arg : Byte,
    ((0x02 ≤ op ∧ op ≤ 0x0F) ∨ (0x13 ≤ op ∧ op ≤ 0x1F) ∨ (0x22 ≤ op ∧ op ≤ 0x2F) ∨ 0x32 ≤ op) →
      decodeCmd (op ++ arg) = .illegal (.undefinedOpcode op)) ∧
    ∀ (s : State) (w : Word) (why : IllegalReason) (rest : List HostEvent),
      s.port = .command w :: rest → s.resetIn = false → decodeCmd w = .illegal why →
        step s = .next { s with port := rest, responses := s.responses ++ [0x0100] }

/-- Words of 95_test_vectors.md and of the templates of the command rules, decoded (a sanity statement). -/
def Obligations.SampleWordsDecode : Prop :=
  decodeCmd 0x0000 = .cmd .nop ∧ decodeCmd 0x0104 = .cmd (.srst 4) ∧
    decodeCmd 0x100D = .cmd (.bstart 0x0D) ∧ decodeCmd 0x11FF = .cmd (.bbyte 0xFF) ∧
    decodeCmd 0x1200 = .cmd .bend ∧ decodeCmd 0x20EF = .cmd (.dbyte 0xEF) ∧
    decodeCmd 0x2100 = .cmd .dend ∧ decodeCmd 0x300B = .cmd (.rdreg 0x0B) ∧
    decodeCmd 0x3106 = .cmd (.rdpay 0x06)

/-- R69: assembling a printed legal word gives the same word back. THE MODEL'S CHOICE (log entry 11), for the
ILLEGAL words: R69 prints one as `.word 0xHHHH` and does not say that the assembler reads that line; the
model's does, and gives the word back. -/
def Obligations.AssemblerReadsBackDisassembly : Prop :=
  ∀ w : Word, assembleLine (disassemble w) = some [w]

/-! ### The step -/

/-- R42, R65: when the host presents the word of a command and the reset input is released, the step is that
command's meaning, with the word taken off the port. The instruction is well formed by its type. -/
def Obligations.StepRunsDecodedCommand : Prop :=
  ∀ (s : State) (w : Word) (rest : List HostEvent) (i : Instr),
    s.port = .command w :: rest → s.resetIn = false → decodeCmd w = .cmd i →
      step s = exec i { s with port := rest }

/-- THE MODEL'S CHOICE (log entries 1 and 3): with nothing presented, or with a command presented while
the reset input is asserted, the step is refused by name. -/
def Obligations.StepIsRefusedWithoutACommand : Prop :=
  (∀ s : State, s.port = [] → step s = .refused .noCommand) ∧
    ∀ (s : State) (w : Word) (rest : List HostEvent),
      s.port = .command w :: rest → s.resetIn = true → step s = .refused .commandDuringReset

/-- R15, the three interfaces: each command returns exactly one response word of R58 and R59, after the
earlier ones, and a change of the reset input returns none; the TX stream only grows, and only at a builder
command; an asserted reset input puts the core in its reset state. -/
def Obligations.InterfacesAppendOnly : Prop :=
  ∀ s t : State, step s = .next t →
    (∃ bs, t.tx = s.tx ++ bs ∧ (bs ≠ [] → ∃ w rest i, s.port = .command w :: rest ∧
      decodeCmd w = .cmd i ∧ isBuilderCommand i = true)) ∧
    ((∃ w rest r, s.port = .command w :: rest ∧ t.port = rest ∧
        t.responses = s.responses ++ [r] ∧ isResponse r) ∨
      (∃ asserted rest, s.port = .reset asserted :: rest ∧ t.port = rest ∧
        t.responses = s.responses ∧ t.resetIn = asserted ∧
        (asserted = true → t.builder = .reset ∧ t.working = .reset ∧ t.result = .reset ∧ t.obs = .reset)))

/-- R116: every command completes and returns its response, in every state of the invariant. -/
def Obligations.EveryCommandCompletes : Prop :=
  ∀ (s : State) (w : Word) (rest : List HostEvent),
    s.Inv → s.port = .command w :: rest → s.resetIn = false →
      ∃ t r, step s = .next t ∧ t.responses = s.responses ++ [r] ∧ isResponse r

/-- R107, R109, R110: the response code is the one that the table of causes gives, ILLEGAL first and BUSY
before RANGE; an error has data 0x00 and no effect but its response. -/
def Obligations.ErrorCodesFollowTheirCauses : Prop :=
  ∀ (s t : State) (w : Word) (rest : List HostEvent),
    s.port = .command w :: rest → s.resetIn = false → step s = .next t →
      ∃ data, t.responses = s.responses ++ [responseWord (codeByCause (decodeCmd w) s) data] ∧
        (codeByCause (decodeCmd w) s ≠ .ok →
          data = 0x00 ∧ t = { s with port := rest, responses := t.responses })

/-! ### Builder -/

/-- R72, BSTART. -/
def Obligations.BstartOpensFrame : Prop :=
  ∀ (t : Byte) (s : State),
    decodeCmd (0x10#8 ++ t) = .cmd (.bstart t) ∧
    (s.builder.bbusy = false → exec (.bstart t) s = .next { s with
      tx := s.tx ++ [0xEF, 0xDD, t]
      builder := { bbusy := true, bpar := false, beven := 0, bodd := 0, bmsg := t }
      responses := s.responses ++ [0x0000] }) ∧
    (s.builder.bbusy = true →
      exec (.bstart t) s = .next { s with responses := s.responses ++ [0x0200] })

/-- R73, BBYTE. -/
def Obligations.BbyteAppendsPayloadByte : Prop :=
  ∀ (b : Byte) (s : State),
    decodeCmd (0x11#8 ++ b) = .cmd (.bbyte b) ∧
    (s.builder.bbusy = true → s.builder.bpar = false → exec (.bbyte b) s = .next { s with
      tx := s.tx ++ [b]
      builder := { s.builder with
        beven := BitVec.ofNat 8 ((s.builder.beven.toNat + b.toNat) % 256), bpar := true }
      responses := s.responses ++ [0x0000] }) ∧
    (s.builder.bbusy = true → s.builder.bpar = true → exec (.bbyte b) s = .next { s with
      tx := s.tx ++ [b]
      builder := { s.builder with
        bodd := BitVec.ofNat 8 ((s.builder.bodd.toNat + b.toNat) % 256), bpar := false }
      responses := s.responses ++ [0x0000] }) ∧
    (s.builder.bbusy = false →
      exec (.bbyte b) s = .next { s with responses := s.responses ++ [0x0200] })

/-- R74, BEND. -/
def Obligations.BendEmitsChecksum : Prop :=
  (∀ arg : Byte, decodeCmd (0x12#8 ++ arg) =
    if arg = 0x00 then .cmd .bend else .illegal (.reservedArgBits 0x12 arg)) ∧
  ∀ s : State,
    (s.builder.bbusy = true → exec .bend s = .next { s with
      tx := s.tx ++ [s.builder.beven, s.builder.bodd]
      builder := { s.builder with bbusy := false }
      responses := s.responses ++ [0x0000] }) ∧
    (s.builder.bbusy = false → exec .bend s = .next { s with responses := s.responses ++ [0x0200] })

/-- R75, the accumulator invariant: after BSTART and `k` BBYTEs the parity bit is `k mod 2` and the two
accumulators are the exact alternating sums modulo 256. -/
def Obligations.AccumulatorsHoldAlternatingSums : Prop :=
  ∀ (t : Byte) (p : List Byte) (s : State), s.builder.bbusy = false →
    ∃ u, execAll (.bstart t :: p.map .bbyte) s = .next u ∧ u.builder =
      { bbusy := true, bpar := decide (p.length % 2 = 1), beven := BitVec.ofNat 8 (evenSum p % 256),
        bodd := BitVec.ofNat 8 (oddSum p % 256), bmsg := t }

/-- R76: from an idle builder, BUILD t, P responds OK to each of its N + 2 commands, appends exactly
buildFrame(t, P), of length N + 5, and leaves the builder as the rule says. -/
def Obligations.BuildEmitsReferenceFrame : Prop :=
  ∀ (t : Byte) (p : List Byte) (s : State), s.builder.bbusy = false →
    execAll (buildCommands t p) s = .next { s with
      tx := s.tx ++ buildFrame t p
      builder := { bbusy := false, bpar := decide (p.length % 2 = 1), beven := lowByte (evenSum p),
                   bodd := lowByte (oddSum p), bmsg := t }
      responses := s.responses ++ List.replicate (p.length + 2) 0x0000 } ∧
    (buildFrame t p).length = p.length + 5

/-- 20_memory.md R46: evenSum and oddSum are the sums of the bytes at even and at odd indices. -/
def Obligations.AlternatingSumsByIndex : Prop :=
  ∀ p : List Byte,
    evenSum p = ((List.range p.length).map fun i => if i % 2 = 0 then (p.getD i 0).toNat else 0).sum ∧
    oddSum p = ((List.range p.length).map fun i => if i % 2 = 1 then (p.getD i 0).toNat else 0).sum

/-! ### Scanner and parser -/

/-- R83, R84: DBYTE is legal with every ARG and steps the scanner by the table of R83, row by row, setting
DACTIVE. In PAYLOAD the write index never leaves PBUF, and in CKSUM CKCNT is 0 or 1, so a row applies. -/
def Obligations.DbyteFollowsScannerTable : Prop :=
  ∀ (b : Byte) (s : State), s.working.Inv →
    decodeCmd (0x20#8 ++ b) = .cmd (.dbyte b) ∧
    (s.working.phase = .hunt → exec (.dbyte b) s = .next { s with
      working := { s.working with dactive := true, phase := if b = 0xEF then .sync1 else .hunt }
      responses := s.responses ++ [0x0000] }) ∧
    (s.working.phase = .sync1 → exec (.dbyte b) s = .next { s with
      working := { s.working with
        dactive := true, phase := if b = 0xDD then .topic else if b = 0xEF then .sync1 else .hunt }
      responses := s.responses ++ [0x0000] }) ∧
    (s.working.phase = .topic → exec (.dbyte b) s = .next { s with
      working := { s.working with dactive := true, wtopic := b, phase := .size }
      responses := s.responses ++ [0x0000] }) ∧
    (s.working.phase = .size → exec (.dbyte b) s = .next { s with
      working := { s.working with dactive := true, wsize := b, phase := .type }
      responses := s.responses ++ [0x0000] }) ∧
    (s.working.phase = .type → exec (.dbyte b) s = .next { s with
      working := { s.working with
        dactive := true, wtype := b, wcnt := 0
        phase := if s.working.wsize = 0 then .cksum else .payload }
      responses := s.responses ++ [0x0000] }) ∧
    (s.working.phase = .payload → exec (.dbyte b) s = .next { s with
      working := { s.working with
        dactive := true, wcnt := s.working.wcnt + 1
        phase := if s.working.wcnt.toNat + 1 = s.working.wsize.toNat then .cksum else .payload }
      pbuf := Memory.write s.pbuf s.working.wcnt.toNat b
      responses := s.responses ++ [0x0000] }) ∧
    (s.working.phase = .cksum → s.working.ckcnt = 0 → exec (.dbyte b) s = .next { s with
      working := { s.working with dactive := true, wck0 := b, ckcnt := 1 }
      responses := s.responses ++ [0x0000] }) ∧
    (s.working.phase = .cksum → s.working.ckcnt = 1 → exec (.dbyte b) s = .next { s with
      working := { s.working with dactive := true, wck1 := b, ckcnt := 2, phase := .done }
      responses := s.responses ++ [0x0000] }) ∧
    (s.working.phase = .payload → s.working.wcnt < s.working.wsize ∧ s.working.wcnt.toNat ≤ 254) ∧
    (s.working.phase = .cksum → s.working.ckcnt = 0 ∨ s.working.ckcnt = 1) ∧
    (s.working.phase = .done → exec (.dbyte b) s = .next { s with
      working := { s.working with dactive := true }
      responses := s.responses ++ [0x0000] })

/-- R19, R83: in PAYLOAD, DBYTE stores its byte at PBUF[WCNT], an index 0 to 254, and leaves every other
entry of PBUF; the payload RAM keeps its canonical form. -/
def Obligations.DbyteStoresAtPayloadCount : Prop :=
  ∀ (b : Byte) (s : State), Memory.wf s.pbuf → s.working.phase = .payload →
    s.working.wcnt < s.working.wsize →
      ∃ t, exec (.dbyte b) s = .next t ∧ Memory.wf t.pbuf ∧ s.working.wcnt.toNat ≤ 254 ∧
        Memory.read t.pbuf s.working.wcnt.toNat = b ∧
        ∀ i, i ≠ s.working.wcnt.toNat → Memory.read t.pbuf i = Memory.read s.pbuf i

/-- THE MODEL'S CHOICE (log entry 7): DBYTE faults in the two working states that the table of R83 does not
cover, which no run reaches. -/
def Obligations.DbyteFaultsOutsideTheTable : Prop :=
  ∀ (b : Byte) (s : State),
    (s.working.phase = .payload → s.working.wcnt = 0xFF → exec (.dbyte b) s = .fault .payloadIndex) ∧
    (s.working.phase = .cksum → s.working.ckcnt = 2 ∨ s.working.ckcnt = 3 →
      exec (.dbyte b) s = .fault .noScannerRow)

/-- 70_reset_and_hazards.md R128: DBYTE writes neither the result registers nor the observables, so that they
stay readable during a decode; while DACTIVE = 1, RDPAY responds BUSY. -/
def Obligations.DbyteKeepsResultsReadable : Prop :=
  ∀ (b : Byte) (s t : State), exec (.dbyte b) s = .next t →
    t.result = s.result ∧ t.obs = s.obs ∧ t.builder = s.builder ∧ t.tx = s.tx ∧
      t.working.dactive = true ∧
      ∀ i : Byte, exec (.rdpay i) t = .next { t with responses := t.responses ++ [0x0500] }

/-- R85: fed from HUNT, the scanner finds the FIRST sync and captures each field from its place after it;
with no sync it is in SYNC1 exactly when the last byte was 0xEF. -/
def Obligations.ScannerFindsFirstSync : Prop :=
  ∀ (cs : List Byte) (s : State), s.working.Inv → s.working.phase = .hunt → Memory.wf s.pbuf →
    ∃ t, execAll (cs.map .dbyte) s = .next t ∧
      (t.working.phase.pastSync = true ↔ ∃ j, SyncAt cs j) ∧
      ((∀ j, ¬ SyncAt cs j) →
        t.working.phase = if cs.getLast? = some 0xEF then .sync1 else .hunt) ∧
      ∀ start, FirstSyncAt cs start →
        (∀ b, cs[start + 2]? = some b → t.working.wtopic = b) ∧
        (∀ b, cs[start + 3]? = some b → t.working.wsize = b) ∧
        (∀ b, cs[start + 4]? = some b → t.working.wtype = b) ∧
        (∀ k b, k < t.working.wsize.toNat → cs[start + 5 + k]? = some b → Memory.read t.pbuf k = b) ∧
        (∀ b, cs[start + t.working.wsize.toNat + 5]? = some b → t.working.wck0 = b) ∧
        (∀ b, cs[start + t.working.wsize.toNat + 6]? = some b → t.working.wck1 = b)

/-- R96: once past the sync the scanner does not return to HUNT before DEND, and after both checksum bytes it
ignores every byte. -/
def Obligations.ScannerNeverRescans : Prop :=
  (∀ (bs : List Byte) (s t : State), s.working.phase.pastSync = true →
    execAll (bs.map .dbyte) s = .next t → t.working.phase.pastSync = true) ∧
  ∀ (bs : List Byte) (s : State), s.working.phase = .done → s.working.dactive = true →
    execAll (bs.map .dbyte) s =
      .next { s with responses := s.responses ++ List.replicate bs.length 0x0000 }

/-! ### End of a buffer -/

/-- R87, R91, R92, R93: DEND completes in every state, responds OK, clears the working state, and its RES and
MCAUSE are those of the phase the buffer ended in and of the frame's topic, type and size; a MALFORMED
result commits no observable. Builder, TX stream and PBUF are unchanged. -/
def Obligations.DendOutcomeTable : Prop :=
  ∀ s : State, ∃ t, exec .dend s = .next t ∧
    t.responses = s.responses ++ [0x0000] ∧ t.working = .reset ∧ t.builder = s.builder ∧ t.tx = s.tx ∧
    t.pbuf = s.pbuf ∧ t.resetIn = s.resetIn ∧ t.rxCkFrom = s.rxCkFrom ∧ t.port = s.port ∧
    (s.working.phase = .hunt ∨ s.working.phase = .sync1 →
      t.result.res = .noFrame ∧ t.result.mcause = .noCause) ∧
    (s.working.phase = .topic ∨ s.working.phase = .size →
      t.result.res = .malformed ∧ t.result.mcause = .hdrTrunc) ∧
    (s.working.phase = .type ∨ s.working.phase = .payload →
      t.result.res = .malformed ∧ t.result.mcause = .length) ∧
    (s.working.phase = .cksum ∨ s.working.phase = .done →
      (s.working.wtopic = 0x08 → t.result.res = .battery ∧ t.result.mcause = .noCause) ∧
      (s.working.wtopic = 0x0C → s.working.wtype = 0x05 → 6 ≤ s.working.wsize.toNat →
        t.result.res = .weight ∧ t.result.mcause = .noCause) ∧
      (s.working.wtopic = 0x0C → s.working.wtype = 0x05 → s.working.wsize.toNat < 6 →
        t.result.res = .malformed ∧ t.result.mcause = .short) ∧
      (s.working.wtopic ≠ 0x08 → ¬ (s.working.wtopic = 0x0C ∧ s.working.wtype = 0x05) →
        t.result.res = .unrecog ∧ t.result.mcause = .noCause)) ∧
    (t.result.res = .malformed → t.obs = s.obs)

/-- R94: what DEND writes to the result registers: RES and MCAUSE from the outcome, and the frame view, for a
frame result and for any other. -/
def Obligations.DendCommitsResultRegisters : Prop :=
  ∀ s : State, ∃ t, exec .dend s = .next t ∧
    (t.result.res, t.result.mcause) = endOutcome s.working ∧
    (t.result.res = .battery ∨ t.result.res = .weight ∨ t.result.res = .unrecog →
      t.result.dtopic = s.working.wtopic ∧ t.result.dtype = s.working.wtype ∧
      t.result.dsize = s.working.wsize ∧
      (t.result.dcke, t.result.dcko) = rxChecksum s.rxCkFrom s.working s.pbuf ∧
      t.result.drxcke = (if s.working.ckcnt = 0 then 0 else s.working.wck0) ∧
      t.result.drxcko = (if s.working.ckcnt = 2 then s.working.wck1 else 0) ∧
      t.result.ckstat = (if s.working.ckcnt.toNat < 2 then .absent
        else if s.working.wck0 = t.result.dcke ∧ s.working.wck1 = t.result.dcko then .matched
        else .mismatched)) ∧
    (t.result.res = .noFrame ∨ t.result.res = .malformed →
      t.result = { ResultRegs.reset with res := t.result.res, mcause := t.result.mcause }) ∧
    t.result.res ≠ .noResult ∧ t.pbuf = s.pbuf

/-- R88: a complete frame of topic 0x08 commits BATTERY, the type byte without bit 7, and no other
observable. -/
def Obligations.DendCommitsBattery : Prop :=
  ∀ s : State, s.working.phase = .cksum ∨ s.working.phase = .done → s.working.wtopic = 0x08 →
    ∃ t, exec .dend s = .next t ∧
      t.obs = { s.obs with battery := (s.working.wtype &&& 0x7F).setWidth 7, bvalid := true } ∧
      exec (.rdreg 0x08) t =
        .next { t with responses := t.responses ++ [0x00#8 ++ (s.working.wtype &&& 0x7F)] }

/-- R89: a complete weight frame of at least six payload bytes commits WMAG little-endian, WEXP from the unit
byte, WNEG from bit 1 of the flags byte, and WVALID; BATTERY and BVALID are kept. -/
def Obligations.DendCommitsWeight : Prop :=
  ∀ s : State, s.working.phase = .cksum ∨ s.working.phase = .done → s.working.wtopic = 0x0C →
    s.working.wtype = 0x05 → 6 ≤ s.working.wsize.toNat →
      ∃ t, exec .dend s = .next t ∧
        t.obs.wmag.toNat = (Memory.read s.pbuf 0).toNat + 256 * (Memory.read s.pbuf 1).toNat ∧
        t.obs.wexp = unitExp (Memory.read s.pbuf 4) ∧
        (t.obs.wneg = true ↔ Memory.read s.pbuf 5 &&& 0x02 ≠ 0) ∧
        t.obs.wvalid = true ∧ t.obs.battery = s.obs.battery ∧ t.obs.bvalid = s.obs.bvalid

/-- R90: the decimal exponent of each unit byte; an unrecognized unit passes undivided. -/
def Obligations.UnitExponentTable : Prop :=
  unitExp 0x01 = 1 ∧ unitExp 0x02 = 2 ∧ unitExp 0x03 = 3 ∧ unitExp 0x04 = 4 ∧ unitExp 0x00 = 0 ∧
    ∀ u : Byte, 0x05 ≤ u → unitExp u = 0

/-- R95: `clearWorking` at every DEND; the observables are written only by a BATTERY or a WEIGHT result of
DEND and by SRST mask bit 2, and each result leaves the other's fields. -/
def Obligations.ObservablesWrittenOnlyByTheirResult : Prop :=
  ∀ (i : Instr) (s t : State), exec i s = .next t →
    (i ≠ .dend → clearsResults i = false → t.obs = s.obs) ∧
    (i = .dend → t.working = .reset ∧
      (t.result.res ≠ .battery → t.result.res ≠ .weight → t.obs = s.obs) ∧
      (t.result.res = .battery → t.obs.wmag = s.obs.wmag ∧ t.obs.wexp = s.obs.wexp ∧
        t.obs.wneg = s.obs.wneg ∧ t.obs.wvalid = s.obs.wvalid) ∧
      (t.result.res = .weight → t.obs.battery = s.obs.battery ∧ t.obs.bvalid = s.obs.bvalid))

/-- R97: the validator's region for each value of RX_CK_FROM, and its two sums modulo 256. -/
def Obligations.ValidatorSumsItsRegion : Prop :=
  ∀ (w : Working) (m : Memory) (payload : List Byte),
    payload = (List.range w.wsize.toNat).map (Memory.read m) →
    rxChecksum .from5 w m =
      (BitVec.ofNat 8 (evenSum payload % 256), BitVec.ofNat 8 (oddSum payload % 256)) ∧
    rxChecksum .from4 w m =
      (BitVec.ofNat 8 ((w.wtype.toNat + oddSum payload) % 256),
        BitVec.ofNat 8 (evenSum payload % 256)) ∧
    rxChecksum .from3 w m =
      (BitVec.ofNat 8 ((w.wsize.toNat + evenSum payload) % 256),
        BitVec.ofNat 8 ((w.wtype.toNat + oddSum payload) % 256))

/-- R98: the validator is informational. Whatever the checksum bytes received (none, one or both) and whatever
RX_CK_FROM, DEND gives the same RES, MCAUSE, DTOPIC, DTYPE, DSIZE and observables. -/
def Obligations.ValidatorIsInformational : Prop :=
  ∀ (s t : State),
    (s.working.phase = t.working.phase ∨
      (s.working.phase = .cksum ∨ s.working.phase = .done) ∧
        (t.working.phase = .cksum ∨ t.working.phase = .done)) →
    s.working.wtopic = t.working.wtopic →
    s.working.wsize = t.working.wsize → s.working.wtype = t.working.wtype → s.pbuf = t.pbuf →
    s.obs = t.obs →
      ∃ s' t', exec .dend s = .next s' ∧ exec .dend t = .next t' ∧
        s'.result.res = t'.result.res ∧ s'.result.mcause = t'.result.mcause ∧
        s'.result.dtopic = t'.result.dtopic ∧ s'.result.dtype = t'.result.dtype ∧
        s'.result.dsize = t'.result.dsize ∧ s'.obs = t'.obs

/-- R99: from HUNT with no byte fed, DECODE of a buffer responds OK to each command and commits exactly what
`decodeRef` returns of it; PBUF then holds the frame's payload, and the builder is untouched. -/
def Obligations.DecodeAgreesWithReference : Prop :=
  ∀ (buf : List Byte) (s : State), s.Inv → s.working.phase = .hunt → s.working.dactive = false →
    ∃ t, execAll (decodeCommands buf) s = .next t ∧
      t.responses = s.responses ++ List.replicate (buf.length + 1) 0x0000 ∧
      t.result = (decodeRef buf).regs s.rxCkFrom ∧
      t.obs = (decodeRef buf).observables s.obs ∧
      (∀ k b, (decodeRef buf).payload[k]? = some b → Memory.read t.pbuf k = b) ∧
      t.working = .reset ∧ t.builder = s.builder ∧ t.tx = s.tx

/-- R99, its first two lines: `findSync` is the least index of a sync, and none when there is none. -/
def Obligations.ReferenceSyncIsFirst : Prop :=
  ∀ buf : List Byte,
    (∀ start, findSync buf = some start ↔ FirstSyncAt buf start) ∧
    (findSync buf = none ↔ ∀ j, ¬ SyncAt buf j)

/-- R100, the source's testable properties: no sync gives NOFRAME and updates no observable; a sizeField that
exceeds the buffer gives MALFORMED LENGTH and updates none; decoding the same buffer twice commits the same
result, observables and payload both times. -/
def Obligations.SourceDecodeProperties : Prop :=
  ∀ (buf : List Byte) (s : State), s.Inv → s.working = .reset →
    ∃ t u, execAll (decodeCommands buf) s = .next t ∧ execAll (decodeCommands buf) t = .next u ∧
      ((∀ j, ¬ SyncAt buf j) → t.result.res = .noFrame ∧ t.obs = s.obs) ∧
      (∀ start size, FirstSyncAt buf start → buf[start + 3]? = some size →
        buf.length < start + size.toNat + 5 →
          t.result.res = .malformed ∧ t.result.mcause = .length ∧ t.obs = s.obs) ∧
      u.result = t.result ∧ u.obs = t.obs ∧
      ∀ i, i < t.result.dsize.toNat → Memory.read u.pbuf i = Memory.read t.pbuf i

/-! ### Access and control -/

/-- R102, NOP. -/
def Obligations.NopOnlyResponds : Prop :=
  (∀ arg : Byte, decodeCmd (0x00#8 ++ arg) =
    if arg = 0x00 then .cmd .nop else .illegal (.reservedArgBits 0x00 arg)) ∧
  ∀ s : State, exec .nop s = .next { s with responses := s.responses ++ [0x0000] }

/-- R103, SRST: each mask bit resets its unit and no other; TX stream and PBUF are untouched. -/
def Obligations.SrstResetsSelectedUnits : Prop :=
  (∀ m : BitVec 3, decodeCmd (0x01#8 ++ (0#5 ++ m)) = .cmd (.srst m)) ∧
  (∀ arg : Byte, arg.extractLsb' 3 5 ≠ 0 →
    decodeCmd (0x01#8 ++ arg) = .illegal (.reservedArgBits 0x01 arg)) ∧
  ∀ (m : BitVec 3) (s : State), exec (.srst m) s = .next { s with
    builder := if m.getLsbD 0 = true then .reset else s.builder
    working := if m.getLsbD 1 = true then .reset else s.working
    result := if m.getLsbD 2 = true then .reset else s.result
    obs := if m.getLsbD 2 = true then .reset else s.obs
    responses := s.responses ++ [0x0000] }

/-- R22, R104: RDREG reads each register of the map at its address and responds BADREG outside it; it
changes no state. -/
def Obligations.RdregReadsTheMap : Prop :=
  ∀ s : State,
    (∀ a : Byte, decodeCmd (0x30#8 ++ a) = .cmd (.rdreg a)) ∧
    (∀ p ∈ ([(0x00, statusReg s), (0x01, s.builder.beven), (0x02, s.builder.bodd),
        (0x03, s.builder.bmsg), (0x04, dresultReg s.result), (0x05, s.result.dtopic),
        (0x06, s.result.dtype), (0x07, s.result.dsize), (0x08, batteryReg s.obs),
        (0x09, s.obs.wmag.extractLsb' 0 8), (0x0A, s.obs.wmag.extractLsb' 8 8), (0x0B, wctlReg s.obs),
        (0x0C, s.result.dcke), (0x0D, s.result.dcko), (0x0E, s.result.drxcke),
        (0x0F, s.result.drxcko)] : List (Byte × Byte)),
      exec (.rdreg p.1) s = .next { s with responses := s.responses ++ [0x00#8 ++ p.2] }) ∧
    ∀ a : Byte, 0x10 ≤ a → exec (.rdreg a) s = .next { s with responses := s.responses ++ [0x0300] }

/-- R23, R24, R27, R28: the fields of STATUS, DRESULT, WCTL and BATTERY stand at their bits, and every
reserved bit reads 0. -/
def Obligations.PackedRegisterFields : Prop :=
  ∀ s : State,
    ((statusReg s).getLsbD 0 = s.builder.bbusy ∧ (statusReg s).getLsbD 1 = s.builder.bpar ∧
      (statusReg s).getLsbD 2 = s.working.dactive ∧
      (statusReg s).extractLsb' 3 3 = s.working.phase.toBits ∧
      (statusReg s).getLsbD 6 = s.obs.bvalid ∧ (statusReg s).getLsbD 7 = s.obs.wvalid) ∧
    ((dresultReg s.result).extractLsb' 0 3 = s.result.res.toBits ∧
      (dresultReg s.result).extractLsb' 3 2 = s.result.mcause.toBits ∧
      (dresultReg s.result).extractLsb' 5 2 = s.result.ckstat.toBits ∧
      (dresultReg s.result).getLsbD 7 = false) ∧
    ((wctlReg s.obs).extractLsb' 0 3 = s.obs.wexp ∧ (wctlReg s.obs).getLsbD 3 = s.obs.wneg ∧
      (wctlReg s.obs).extractLsb' 4 4 = 0) ∧
    ((batteryReg s.obs).extractLsb' 0 7 = s.obs.battery ∧ (batteryReg s.obs).getLsbD 7 = false)

/-- R18, R24, R25, R26: the numbers of PHASE, RES, MCAUSE and CKSTAT. -/
def Obligations.FieldEncodings : Prop :=
  [Phase.hunt, .sync1, .topic, .size, .type, .payload, .cksum, .done].map Phase.toBits
      = [0, 1, 2, 3, 4, 5, 6, 7] ∧
    [ResCode.noResult, .noFrame, .malformed, .battery, .weight, .unrecog].map ResCode.toBits
      = [0, 1, 2, 3, 4, 5] ∧
    [MCause.noCause, .hdrTrunc, .length, .short].map MCause.toBits = [0, 1, 2, 3] ∧
    [CkStat.notChecked, .absent, .matched, .mismatched].map CkStat.toBits = [0, 1, 2, 3]

/-- R105, RDPAY: BUSY, else RANGE, else the payload byte; no state changes. -/
def Obligations.RdpayReadsHeldPayload : Prop :=
  ∀ (i : Byte) (s : State),
    decodeCmd (0x31#8 ++ i) = .cmd (.rdpay i) ∧
    (s.working.dactive = true →
      exec (.rdpay i) s = .next { s with responses := s.responses ++ [0x0500] }) ∧
    (s.working.dactive = false →
      ¬ (s.result.res = .battery ∨ s.result.res = .weight ∨ s.result.res = .unrecog) ∨
        s.result.dsize.toNat ≤ i.toNat →
      exec (.rdpay i) s = .next { s with responses := s.responses ++ [0x0400] }) ∧
    (s.working.dactive = false →
      s.result.res = .battery ∨ s.result.res = .weight ∨ s.result.res = .unrecog →
      i.toNat < s.result.dsize.toNat →
      exec (.rdpay i) s = .next { s with
        responses := s.responses ++ [0x00#8 ++ Memory.read s.pbuf i.toNat] })

/-- R106, R40: NOP, RDREG and RDPAY change nothing but the list of responses, and repeated they respond the
same; SRST never touches the TX stream or PBUF. -/
def Obligations.AccessCommandsKeepState : Prop :=
  (∀ (i : Instr) (s : State), isReadCommand i = true →
    ∃ r, exec i s = .next { s with responses := s.responses ++ [r] } ∧
      exec i { s with responses := s.responses ++ [r] } =
        .next { s with responses := s.responses ++ [r] ++ [r] }) ∧
  ∀ (m : BitVec 3) (s t : State), exec (.srst m) s = .next t → t.tx = s.tx ∧ t.pbuf = s.pbuf ∧
    (m.getLsbD 0 = false → t.builder = s.builder) ∧ (m.getLsbD 1 = false → t.working = s.working) ∧
    (m.getLsbD 2 = false → t.result = s.result ∧ t.obs = s.obs)

/-! ### Who writes what -/

/-- R33: which commands set and clear each flag of STATUS. -/
def Obligations.FlagWriters : Prop :=
  ∀ (i : Instr) (s t : State), exec i s = .next t →
    (s.builder.bbusy = false → t.builder.bbusy = true → ∃ x, i = .bstart x) ∧
    (s.builder.bbusy = true → t.builder.bbusy = false →
      i = .bend ∨ ∃ m : BitVec 3, i = .srst m ∧ m.getLsbD 0 = true) ∧
    (s.builder.bpar = false → t.builder.bpar = true → ∃ x, i = .bbyte x) ∧
    (s.builder.bpar = true → t.builder.bpar = false →
      (∃ x, i = .bbyte x) ∨ (∃ x, i = .bstart x) ∨ ∃ m : BitVec 3, i = .srst m ∧ m.getLsbD 0 = true) ∧
    (s.working.dactive = false → t.working.dactive = true → ∃ x, i = .dbyte x) ∧
    (s.working.dactive = true → t.working.dactive = false →
      i = .dend ∨ ∃ m : BitVec 3, i = .srst m ∧ m.getLsbD 1 = true) ∧
    (t.working.phase ≠ s.working.phase → (∃ x, i = .dbyte x) ∨
      (t.working.phase = .hunt ∧ (i = .dend ∨ ∃ m : BitVec 3, i = .srst m ∧ m.getLsbD 1 = true))) ∧
    (s.obs.bvalid = false → t.obs.bvalid = true → i = .dend ∧ t.result.res = .battery) ∧
    (s.obs.bvalid = true → t.obs.bvalid = false → clearsResults i = true) ∧
    (s.obs.wvalid = false → t.obs.wvalid = true → i = .dend ∧ t.result.res = .weight) ∧
    (s.obs.wvalid = true → t.obs.wvalid = false → clearsResults i = true)

/-- R20: the result registers change only at DEND and at SRST mask bit 2. -/
def Obligations.ResultRegistersWriters : Prop :=
  ∀ (i : Instr) (s t : State), exec i s = .next t → i ≠ .dend → clearsResults i = false →
    t.result = s.result

/-- R19: PBUF is written only by DBYTE in PAYLOAD; RX_CK_FROM, the reset input, the port and the reset counter
by no command. -/
def Obligations.PayloadRamWriters : Prop :=
  ∀ (i : Instr) (s t : State), exec i s = .next t →
    (t.pbuf ≠ s.pbuf → s.working.phase = .payload ∧ ∃ b, i = .dbyte b) ∧
    t.rxCkFrom = s.rxCkFrom ∧ t.resetIn = s.resetIn ∧ t.port = s.port ∧ t.resets = s.resets

/-- R32: builder commands read and write only builder state and the TX stream; decoder commands read and
write only the decoder's state; so a builder command and a decoder command give each unit the same in either
order (only the order of their two responses differs). -/
def Obligations.UnitsAreIndependent : Prop :=
  (∀ (i : Instr) (s t : State), isBuilderCommand i = true → exec i s = .next t →
    t = { s with builder := t.builder, tx := t.tx, responses := t.responses } ∧
    ∀ s' t', s'.builder = s.builder → exec i s' = .next t' →
      t'.builder = t.builder ∧ ∃ bs r, t.tx = s.tx ++ bs ∧ t'.tx = s'.tx ++ bs ∧
        t.responses = s.responses ++ [r] ∧ t'.responses = s'.responses ++ [r]) ∧
  (∀ (i : Instr) (s t : State), isDecoderCommand i = true → exec i s = .next t →
    t = { s with working := t.working, pbuf := t.pbuf, result := t.result, obs := t.obs,
                 responses := t.responses } ∧
    ∀ s' t', s'.working = s.working → s'.pbuf = s.pbuf → s'.result = s.result → s'.obs = s.obs →
      s'.rxCkFrom = s.rxCkFrom → exec i s' = .next t' →
        t'.working = t.working ∧ t'.pbuf = t.pbuf ∧ t'.result = t.result ∧ t'.obs = t.obs) ∧
  ∀ (b d : Instr) (s s1 t : State), isBuilderCommand b = true → isDecoderCommand d = true →
    exec b s = .next s1 → exec d s1 = .next t →
      ∃ s2 t', exec d s = .next s2 ∧ exec b s2 = .next t' ∧
        { t' with responses := t.responses } = t

/-! ### Reset -/

/-- R34: the state after reset, field by field, the TX stream unchanged by a later reset, and every register
of the map reads 0x00. -/
def Obligations.ResetStateValues : Prop :=
  State.reset.builder = ⟨false, false, 0, 0, 0⟩ ∧
    State.reset.working = ⟨.hunt, false, 0, 0, 0, 0, 0, 0, 0⟩ ∧
    State.reset.result = ⟨.noResult, .noCause, .notChecked, 0, 0, 0, 0, 0, 0, 0⟩ ∧
    State.reset.obs = ⟨0, 0, 0, false, false, false⟩ ∧ State.reset.tx = [] ∧
    (∀ (s t : State) (rest : List HostEvent), s.port = .reset true :: rest → step s = .next t →
      t.tx = s.tx) ∧
    ∀ a : Byte, a ≤ 0x0F → exec (.rdreg a) State.reset = .next { State.reset with responses := [0x0000] }

/-- R123: the reset input asserted puts every field at its reset value, and neither emits nor removes TX
bytes; released, the core has the reset values. THE MODEL'S CHOICE (log entry 3), in the second clause: with a
command presented while the reset input is asserted, the step answers no next state, where R123 says only that
"the core executes no command". -/
def Obligations.ResetInputResetsTheCore : Prop :=
  (∀ (s : State) (rest : List HostEvent), s.port = .reset true :: rest →
    ∃ t, step s = .next t ∧ t.builder = .reset ∧ t.working = .reset ∧ t.result = .reset ∧
      t.obs = .reset ∧ t.tx = s.tx ∧ t.responses = s.responses ∧ t.rxCkFrom = s.rxCkFrom ∧
      t.resetIn = true ∧ t.port = rest ∧ Memory.wf t.pbuf) ∧
  (∀ (s t : State) (w : Word) (rest : List HostEvent), s.port = .command w :: rest →
    s.resetIn = true → step s ≠ .next t) ∧
  ∀ (s : State) (rest : List HostEvent), s.Inv → s.resetIn = true → s.port = .reset false :: rest →
    step s = .next { s with port := rest, resetIn := false } ∧
      s.builder = .reset ∧ s.working = .reset ∧ s.result = .reset ∧ s.obs = .reset

/-- R103 (its corner case m = 7), 92_eei_decisions.md D27: SRST 7 and the reset input leave every field but PBUF
equal, and neither touches the TX stream. -/
def Obligations.FullSoftResetIsTheResetInput : Prop :=
  ∀ (s : State) (rest : List HostEvent), s.resetIn = false →
    ∃ t u, step { s with port := .command 0x0107 :: rest } = .next t ∧
      step { s with port := .reset true :: rest } = .next u ∧
      t.builder = u.builder ∧ t.working = u.working ∧ t.result = u.result ∧ t.obs = u.obs ∧
      t.tx = u.tx ∧ t.builder = .reset ∧ t.working = .reset ∧ t.result = .reset ∧ t.obs = .reset ∧
      t.tx = s.tx

/-! ### Invariants and isolation -/

/-- The invariant holds after reset. -/
def Obligations.InvariantHoldsAtReset : Prop := State.reset.Inv

/-- Every step keeps the invariant: the payload RAM's canonical form, the scanner's bounds, MCAUSE and CKSTAT
as R25 and R26 say, WEXP at most 4 (R27), the frame view 0 without a frame (R20), only the response words
of R58 and R59, and reset values while the reset input is asserted. -/
def Obligations.StepKeepsInvariant : Prop :=
  ∀ s t : State, s.Inv → step s = .next t → t.Inv

/-- R116: in a state of the invariant a step never faults, and it is refused only when there is no command to
execute. -/
def Obligations.InvariantStatesNeverFault : Prop :=
  ∀ s : State, s.Inv →
    (∀ f, step s ≠ .fault f) ∧
    ∀ r, step s = .refused r → (r = .noCommand ∧ s.port = []) ∨
      (r = .commandDuringReset ∧ s.resetIn = true ∧ ∃ w rest, s.port = .command w :: rest)

/-- R35: PBUF contents that the current buffer has not written and that no held frame covers are never
observable: two states that differ only there step alike, with the same responses and TX bytes, and differ
only there afterwards. -/
def Obligations.DeadPayloadEntriesAreNotObservable : Prop :=
  ∀ s t s' : State, s.Inv → t.Inv → SameButDeadPbuf s t → step s = .next s' →
    ∃ t', step t = .next t' ∧ SameButDeadPbuf s' t'

/-- R6: decode outcomes and observables never depend on RX_CK_FROM: two states that differ only in it and in
what the validator computed step alike and differ only so afterwards. -/
def Obligations.OutcomesIgnoreRxCkFrom : Prop :=
  ∀ s t s' : State, SameButValidator s t → step s = .next s' →
    ∃ t', step t = .next t' ∧ SameButValidator s' t'

/-- R29: the weight is the exact rational of its three fields, with magnitude at most 65535. -/
def Obligations.WeightIsExactAndBounded : Prop :=
  ∀ o : Observables,
    weightValue o * 10 ^ o.wexp.toNat = (if o.wneg then -(o.wmag.toNat : ℚ) else o.wmag.toNat) ∧
      |weightValue o| ≤ 65535
end

