-- ==== Sys2Proof/Laws/Checksum.lean ====
section
/-! SUPPORT. The alternating sums, one byte at a time. -/

namespace Sys2Proof.Machine

/-- A byte in front counts to the even sum and swaps the places of the others. -/
theorem sums_cons (b : Byte) (bs : List Byte) :
    evenSum (b :: bs) = b.toNat + oddSum bs ∧ oddSum (b :: bs) = evenSum bs := by
  induction bs generalizing b with
  | nil => simp [evenSum, oddSum]
  | cons c bs ih =>
    have h := ih c
    simp only [evenSum, oddSum] at *
    exact ⟨by rw [h.2], h.1.symm⟩

/-- Taking the low byte is truncation to 8 bits. -/
theorem lowByte_eq (sum : Nat) : lowByte sum = BitVec.ofNat 8 sum := by
  apply BitVec.eq_of_toNat_eq
  simp [lowByte]

end Sys2Proof.Machine
end

