-- ==== Sys2Proof/Laws/Decode.lean ====
section
/-! SUPPORT. The two fields of a command word (30_encoding.md R56), and what the decoder can answer. -/

namespace Sys2Proof

/-- The bits of a word made of two bytes. -/
theorem getLsbD_bytes (op arg : Byte) (i : Nat) :
    (op ++ arg : Word).getLsbD i = if i < 8 then arg.getLsbD i else op.getLsbD (i - 8) := by
  have e : (op ++ arg : Word) = (op ++ arg : BitVec (8 + 8)) := rfl
  rw [e, BitVec.getLsbD_append]

@[simp] theorem extract_high_append (op arg : Byte) :
    (op ++ arg : Word).extractLsb' 8 8 = op := by
  refine BitVec.eq_of_getLsbD_eq fun i hi => ?_
  simp [getLsbD_bytes, hi]

@[simp] theorem extract_low_append (op arg : Byte) :
    (op ++ arg : Word).extractLsb' 0 8 = arg := by
  refine BitVec.eq_of_getLsbD_eq fun i hi => ?_
  simp [getLsbD_bytes, hi]

@[simp] theorem opField_cmd16 (op arg : Byte) : opField (cmd16 op arg) = op :=
  extract_high_append op arg

@[simp] theorem argField_cmd16 (op arg : Byte) : argField (cmd16 op arg) = arg :=
  extract_low_append op arg

/-- A word is OP then ARG. -/
theorem cmd16_fields (w : Word) : cmd16 (opField w) (argField w) = w := by
  refine BitVec.eq_of_getLsbD_eq fun i hi => ?_
  rw [cmd16, getLsbD_bytes]
  by_cases h : i < 8
  · simp [h, argField]
  · simp [h, opField, show i - 8 < 8 by omega, show 8 + (i - 8) = i by omega]

/-- What passes the check of the reserved ARG bits. -/
theorem checkReserved_eq_cmd {reserved op arg : Byte} {i j : Instr} :
    checkReserved reserved op arg i = .cmd j ↔ arg &&& reserved = 0 ∧ i = j := by
  unfold checkReserved
  split <;> simp_all

end Sys2Proof
end

