-- ==== Sys2Proof/Laws/Memory.lean ====
section
/-! SUPPORT. The laws of the payload RAM: read after write, and every operation keeps the canonical form. -/

namespace Sys2Proof.Machine

@[simp] theorem Memory.read_nil (i : Nat) : Memory.read [] i = Memory.unlisted := rfl

theorem Memory.read_entry (j : Nat) (b : Byte) (m : Memory) (i : Nat) :
    Memory.read ((j, b) :: m) i = if j = i then b else Memory.read m i := rfl

theorem Memory.wf_nil : Memory.wf [] := by simp [Memory.wf]

/-- A list whose indices all lie above `i` does not list `i`. -/
theorem Memory.read_of_above {m : Memory} {i : Nat} (h : ∀ c ∈ m, i < c.1) :
    Memory.read m i = Memory.unlisted := by
  induction m with
  | nil => rfl
  | cons c m ih =>
    have hc := h c (by simp)
    simp only [Memory.read, Nat.ne_of_gt hc, if_false]
    exact ih fun d hd => h d (by simp [hd])

theorem Memory.wf_cons {j : Nat} {b : Byte} {m : Memory} :
    Memory.wf ((j, b) :: m) ↔
      (∀ c ∈ m, j < c.1) ∧ j < pbufEntries ∧ b ≠ Memory.unlisted ∧ Memory.wf m := by
  simp only [Memory.wf, List.pairwise_cons, List.forall_mem_cons]
  tauto

theorem Memory.read_cons_same {m : Memory} {i : Nat} {b : Byte} (h : ∀ c ∈ m, i < c.1) :
    Memory.read (Memory.cons i b m) i = b := by
  unfold Memory.cons
  split
  · next hb => rw [Memory.read_of_above h, hb]
  · simp [Memory.read]

theorem Memory.read_cons_other {m : Memory} {i k : Nat} {b : Byte} (h : k ≠ i) :
    Memory.read (Memory.cons i b m) k = Memory.read m k := by
  unfold Memory.cons
  split
  · rfl
  · simp [Memory.read, Ne.symm h]

theorem Memory.mem_cons {m : Memory} {i : Nat} {b : Byte} {c : Host.Cell}
    (h : c ∈ Memory.cons i b m) : c.1 = i ∨ c ∈ m := by
  unfold Memory.cons at h
  split at h
  · exact .inr h
  · rcases List.mem_cons.1 h with rfl | h
    · exact .inl rfl
    · exact .inr h

theorem Memory.cons_wf {m : Memory} {i : Nat} {b : Byte} (hm : Memory.wf m)
    (h : ∀ c ∈ m, i < c.1) (hi : i < pbufEntries) : Memory.wf (Memory.cons i b m) := by
  unfold Memory.cons
  split
  · exact hm
  · next hb => exact Memory.wf_cons.2 ⟨h, hi, hb, hm⟩

/-- A written index is the index written or one listed before. -/
theorem Memory.mem_write {m : Memory} {i : Nat} {b : Byte} {c : Host.Cell}
    (h : c ∈ Memory.write m i b) : c.1 = i ∨ c ∈ m := by
  induction m with
  | nil => exact Memory.mem_cons h
  | cons d m ih =>
    simp only [Memory.write] at h
    split at h
    · exact Memory.mem_cons h
    · split at h
      · rcases Memory.mem_cons h with h | h
        · exact .inl h
        · exact .inr (List.mem_cons_of_mem _ h)
      · rcases List.mem_cons.1 h with rfl | h
        · exact .inr (by simp)
        · exact (ih h).imp_right (List.mem_cons_of_mem _)

/-- A write at an index of PBUF keeps the canonical form. -/
theorem Memory.write_wf {m : Memory} {i : Nat} {b : Byte} (hm : Memory.wf m)
    (hi : i < pbufEntries) : Memory.wf (Memory.write m i b) := by
  induction m with
  | nil => exact Memory.cons_wf hm (by simp) hi
  | cons d m ih =>
    obtain ⟨j, c⟩ := d
    have hw := Memory.wf_cons.1 hm
    simp only [Memory.write]
    split
    · next hij =>
      refine Memory.cons_wf hm (fun x hx => ?_) hi
      rcases List.mem_cons.1 hx with rfl | hx
      · exact hij
      · exact hij.trans (hw.1 x hx)
    · split
      · next hij => exact Memory.cons_wf hw.2.2.2 (hij ▸ hw.1) hi
      · refine Memory.wf_cons.2 ⟨fun x hx => ?_, hw.2.1, hw.2.2.1, ih hw.2.2.2⟩
        rcases Memory.mem_write hx with h | h
        · omega
        · exact hw.1 x h

/-- A read after a write to the same index gives the byte written. -/
theorem Memory.read_write_same {m : Memory} {i : Nat} {b : Byte} (hm : Memory.wf m) :
    Memory.read (Memory.write m i b) i = b := by
  induction m with
  | nil => exact Memory.read_cons_same (by simp)
  | cons d m ih =>
    obtain ⟨j, c⟩ := d
    have hw := Memory.wf_cons.1 hm
    simp only [Memory.write]
    split
    · next hij =>
      refine Memory.read_cons_same fun x hx => ?_
      rcases List.mem_cons.1 hx with rfl | hx
      · exact hij
      · exact hij.trans (hw.1 x hx)
    · split
      · next hij => exact Memory.read_cons_same (hij ▸ hw.1)
      · next hij => simp [Memory.read_entry, Ne.symm hij, ih hw.2.2.2]

/-- A write leaves every other index alone. -/
theorem Memory.read_write_other {m : Memory} {i k : Nat} {b : Byte} (h : k ≠ i) :
    Memory.read (Memory.write m i b) k = Memory.read m k := by
  induction m with
  | nil => exact Memory.read_cons_other h
  | cons d m ih =>
    obtain ⟨j, c⟩ := d
    simp only [Memory.write]
    split
    · exact Memory.read_cons_other h
    · split
      · next hij => rw [Memory.read_cons_other h, Memory.read_entry, if_neg (hij ▸ Ne.symm h)]
      · simp [Memory.read_entry, ih]

/-- The payload RAM after the reset input has the canonical form, whatever its bytes. -/
theorem Memory.fill_wf (byteAt : Nat → Byte) : Memory.wf (Memory.fill byteAt) := by
  refine ⟨(List.pairwise_map.2 ?_).filter _, fun c hc => ?_⟩
  · exact List.pairwise_lt_range
  · simp only [Memory.fill, List.mem_filter, List.mem_map, List.mem_range] at hc
    obtain ⟨⟨i, hi, rfl⟩, hb⟩ := hc
    exact ⟨hi, by simpa using hb⟩

@[simp] theorem Memory.firstBytes_length (m : Memory) (n : Nat) : (Memory.firstBytes m n).length = n := by
  simp [Memory.firstBytes]

end Sys2Proof.Machine
end

