-- ==== Sys2Proof/Laws/State.lean ====
section
/-! SUPPORT. One lemma for each field of State under each named update, true by rfl, so that no proof unfolds
a record update. -/

namespace Sys2Proof.Machine

/-! ### setBuilder -/

@[simp] theorem State.setBuilder_builder (s : State) (b : Builder) : (s.setBuilder b).builder = b := rfl
@[simp] theorem State.setBuilder_working (s : State) (b : Builder) : (s.setBuilder b).working = s.working :=
  rfl
@[simp] theorem State.setBuilder_pbuf (s : State) (b : Builder) : (s.setBuilder b).pbuf = s.pbuf := rfl
@[simp] theorem State.setBuilder_result (s : State) (b : Builder) : (s.setBuilder b).result = s.result :=
  rfl
@[simp] theorem State.setBuilder_obs (s : State) (b : Builder) : (s.setBuilder b).obs = s.obs := rfl
@[simp] theorem State.setBuilder_tx (s : State) (b : Builder) : (s.setBuilder b).tx = s.tx := rfl
@[simp] theorem State.setBuilder_responses (s : State) (b : Builder) : (s.setBuilder b).responses = s.responses :=
  rfl
@[simp] theorem State.setBuilder_resetIn (s : State) (b : Builder) : (s.setBuilder b).resetIn = s.resetIn :=
  rfl
@[simp] theorem State.setBuilder_rxCkFrom (s : State) (b : Builder) : (s.setBuilder b).rxCkFrom = s.rxCkFrom :=
  rfl
@[simp] theorem State.setBuilder_port (s : State) (b : Builder) : (s.setBuilder b).port = s.port := rfl
@[simp] theorem State.setBuilder_resets (s : State) (b : Builder) : (s.setBuilder b).resets = s.resets :=
  rfl

/-! ### setWorking -/

@[simp] theorem State.setWorking_builder (s : State) (w : Working) : (s.setWorking w).builder = s.builder :=
  rfl
@[simp] theorem State.setWorking_working (s : State) (w : Working) : (s.setWorking w).working = w := rfl
@[simp] theorem State.setWorking_pbuf (s : State) (w : Working) : (s.setWorking w).pbuf = s.pbuf := rfl
@[simp] theorem State.setWorking_result (s : State) (w : Working) : (s.setWorking w).result = s.result :=
  rfl
@[simp] theorem State.setWorking_obs (s : State) (w : Working) : (s.setWorking w).obs = s.obs := rfl
@[simp] theorem State.setWorking_tx (s : State) (w : Working) : (s.setWorking w).tx = s.tx := rfl
@[simp] theorem State.setWorking_responses (s : State) (w : Working) : (s.setWorking w).responses = s.responses :=
  rfl
@[simp] theorem State.setWorking_resetIn (s : State) (w : Working) : (s.setWorking w).resetIn = s.resetIn :=
  rfl
@[simp] theorem State.setWorking_rxCkFrom (s : State) (w : Working) : (s.setWorking w).rxCkFrom = s.rxCkFrom :=
  rfl
@[simp] theorem State.setWorking_port (s : State) (w : Working) : (s.setWorking w).port = s.port := rfl
@[simp] theorem State.setWorking_resets (s : State) (w : Working) : (s.setWorking w).resets = s.resets :=
  rfl

/-! ### setPbuf -/

@[simp] theorem State.setPbuf_builder (s : State) (m : Memory) : (s.setPbuf m).builder = s.builder := rfl
@[simp] theorem State.setPbuf_working (s : State) (m : Memory) : (s.setPbuf m).working = s.working := rfl
@[simp] theorem State.setPbuf_pbuf (s : State) (m : Memory) : (s.setPbuf m).pbuf = m := rfl
@[simp] theorem State.setPbuf_result (s : State) (m : Memory) : (s.setPbuf m).result = s.result := rfl
@[simp] theorem State.setPbuf_obs (s : State) (m : Memory) : (s.setPbuf m).obs = s.obs := rfl
@[simp] theorem State.setPbuf_tx (s : State) (m : Memory) : (s.setPbuf m).tx = s.tx := rfl
@[simp] theorem State.setPbuf_responses (s : State) (m : Memory) : (s.setPbuf m).responses = s.responses :=
  rfl
@[simp] theorem State.setPbuf_resetIn (s : State) (m : Memory) : (s.setPbuf m).resetIn = s.resetIn := rfl
@[simp] theorem State.setPbuf_rxCkFrom (s : State) (m : Memory) : (s.setPbuf m).rxCkFrom = s.rxCkFrom := rfl
@[simp] theorem State.setPbuf_port (s : State) (m : Memory) : (s.setPbuf m).port = s.port := rfl
@[simp] theorem State.setPbuf_resets (s : State) (m : Memory) : (s.setPbuf m).resets = s.resets := rfl

/-! ### setResult -/

@[simp] theorem State.setResult_builder (s : State) (r : ResultRegs) : (s.setResult r).builder = s.builder :=
  rfl
@[simp] theorem State.setResult_working (s : State) (r : ResultRegs) : (s.setResult r).working = s.working :=
  rfl
@[simp] theorem State.setResult_pbuf (s : State) (r : ResultRegs) : (s.setResult r).pbuf = s.pbuf := rfl
@[simp] theorem State.setResult_result (s : State) (r : ResultRegs) : (s.setResult r).result = r := rfl
@[simp] theorem State.setResult_obs (s : State) (r : ResultRegs) : (s.setResult r).obs = s.obs := rfl
@[simp] theorem State.setResult_tx (s : State) (r : ResultRegs) : (s.setResult r).tx = s.tx := rfl
@[simp] theorem State.setResult_responses (s : State) (r : ResultRegs) : (s.setResult r).responses = s.responses :=
  rfl
@[simp] theorem State.setResult_resetIn (s : State) (r : ResultRegs) : (s.setResult r).resetIn = s.resetIn :=
  rfl
@[simp] theorem State.setResult_rxCkFrom (s : State) (r : ResultRegs) : (s.setResult r).rxCkFrom = s.rxCkFrom :=
  rfl
@[simp] theorem State.setResult_port (s : State) (r : ResultRegs) : (s.setResult r).port = s.port := rfl
@[simp] theorem State.setResult_resets (s : State) (r : ResultRegs) : (s.setResult r).resets = s.resets :=
  rfl

/-! ### setObs -/

@[simp] theorem State.setObs_builder (s : State) (o : Observables) : (s.setObs o).builder = s.builder := rfl
@[simp] theorem State.setObs_working (s : State) (o : Observables) : (s.setObs o).working = s.working := rfl
@[simp] theorem State.setObs_pbuf (s : State) (o : Observables) : (s.setObs o).pbuf = s.pbuf := rfl
@[simp] theorem State.setObs_result (s : State) (o : Observables) : (s.setObs o).result = s.result := rfl
@[simp] theorem State.setObs_obs (s : State) (o : Observables) : (s.setObs o).obs = o := rfl
@[simp] theorem State.setObs_tx (s : State) (o : Observables) : (s.setObs o).tx = s.tx := rfl
@[simp] theorem State.setObs_responses (s : State) (o : Observables) : (s.setObs o).responses = s.responses :=
  rfl
@[simp] theorem State.setObs_resetIn (s : State) (o : Observables) : (s.setObs o).resetIn = s.resetIn := rfl
@[simp] theorem State.setObs_rxCkFrom (s : State) (o : Observables) : (s.setObs o).rxCkFrom = s.rxCkFrom :=
  rfl
@[simp] theorem State.setObs_port (s : State) (o : Observables) : (s.setObs o).port = s.port := rfl
@[simp] theorem State.setObs_resets (s : State) (o : Observables) : (s.setObs o).resets = s.resets := rfl

/-! ### setPort -/

@[simp] theorem State.setPort_builder (s : State) (p : List HostEvent) : (s.setPort p).builder = s.builder :=
  rfl
@[simp] theorem State.setPort_working (s : State) (p : List HostEvent) : (s.setPort p).working = s.working :=
  rfl
@[simp] theorem State.setPort_pbuf (s : State) (p : List HostEvent) : (s.setPort p).pbuf = s.pbuf := rfl
@[simp] theorem State.setPort_result (s : State) (p : List HostEvent) : (s.setPort p).result = s.result :=
  rfl
@[simp] theorem State.setPort_obs (s : State) (p : List HostEvent) : (s.setPort p).obs = s.obs := rfl
@[simp] theorem State.setPort_tx (s : State) (p : List HostEvent) : (s.setPort p).tx = s.tx := rfl
@[simp] theorem State.setPort_responses (s : State) (p : List HostEvent) : (s.setPort p).responses = s.responses :=
  rfl
@[simp] theorem State.setPort_resetIn (s : State) (p : List HostEvent) : (s.setPort p).resetIn = s.resetIn :=
  rfl
@[simp] theorem State.setPort_rxCkFrom (s : State) (p : List HostEvent) : (s.setPort p).rxCkFrom = s.rxCkFrom :=
  rfl
@[simp] theorem State.setPort_port (s : State) (p : List HostEvent) : (s.setPort p).port = p := rfl
@[simp] theorem State.setPort_resets (s : State) (p : List HostEvent) : (s.setPort p).resets = s.resets :=
  rfl

/-! ### setResetIn -/

@[simp] theorem State.setResetIn_builder (s : State) (l : Bool) : (s.setResetIn l).builder = s.builder :=
  rfl
@[simp] theorem State.setResetIn_working (s : State) (l : Bool) : (s.setResetIn l).working = s.working :=
  rfl
@[simp] theorem State.setResetIn_pbuf (s : State) (l : Bool) : (s.setResetIn l).pbuf = s.pbuf := rfl
@[simp] theorem State.setResetIn_result (s : State) (l : Bool) : (s.setResetIn l).result = s.result := rfl
@[simp] theorem State.setResetIn_obs (s : State) (l : Bool) : (s.setResetIn l).obs = s.obs := rfl
@[simp] theorem State.setResetIn_tx (s : State) (l : Bool) : (s.setResetIn l).tx = s.tx := rfl
@[simp] theorem State.setResetIn_responses (s : State) (l : Bool) : (s.setResetIn l).responses = s.responses :=
  rfl
@[simp] theorem State.setResetIn_resetIn (s : State) (l : Bool) : (s.setResetIn l).resetIn = l := rfl
@[simp] theorem State.setResetIn_rxCkFrom (s : State) (l : Bool) : (s.setResetIn l).rxCkFrom = s.rxCkFrom :=
  rfl
@[simp] theorem State.setResetIn_port (s : State) (l : Bool) : (s.setResetIn l).port = s.port := rfl
@[simp] theorem State.setResetIn_resets (s : State) (l : Bool) : (s.setResetIn l).resets = s.resets := rfl

/-! ### emit -/

@[simp] theorem State.emit_builder (s : State) (b : Byte) : (s.emit b).builder = s.builder := rfl
@[simp] theorem State.emit_working (s : State) (b : Byte) : (s.emit b).working = s.working := rfl
@[simp] theorem State.emit_pbuf (s : State) (b : Byte) : (s.emit b).pbuf = s.pbuf := rfl
@[simp] theorem State.emit_result (s : State) (b : Byte) : (s.emit b).result = s.result := rfl
@[simp] theorem State.emit_obs (s : State) (b : Byte) : (s.emit b).obs = s.obs := rfl
@[simp] theorem State.emit_tx (s : State) (b : Byte) : (s.emit b).tx = s.tx ++ [b] := rfl
@[simp] theorem State.emit_responses (s : State) (b : Byte) : (s.emit b).responses = s.responses := rfl
@[simp] theorem State.emit_resetIn (s : State) (b : Byte) : (s.emit b).resetIn = s.resetIn := rfl
@[simp] theorem State.emit_rxCkFrom (s : State) (b : Byte) : (s.emit b).rxCkFrom = s.rxCkFrom := rfl
@[simp] theorem State.emit_port (s : State) (b : Byte) : (s.emit b).port = s.port := rfl
@[simp] theorem State.emit_resets (s : State) (b : Byte) : (s.emit b).resets = s.resets := rfl

/-! ### respond -/

@[simp] theorem State.respond_builder (s : State) (c : RespCode) (d : Byte) : (s.respond c d).builder = s.builder :=
  rfl
@[simp] theorem State.respond_working (s : State) (c : RespCode) (d : Byte) : (s.respond c d).working = s.working :=
  rfl
@[simp] theorem State.respond_pbuf (s : State) (c : RespCode) (d : Byte) : (s.respond c d).pbuf = s.pbuf :=
  rfl
@[simp] theorem State.respond_result (s : State) (c : RespCode) (d : Byte) : (s.respond c d).result = s.result :=
  rfl
@[simp] theorem State.respond_obs (s : State) (c : RespCode) (d : Byte) : (s.respond c d).obs = s.obs := rfl
@[simp] theorem State.respond_tx (s : State) (c : RespCode) (d : Byte) : (s.respond c d).tx = s.tx := rfl
@[simp] theorem State.respond_responses (s : State) (c : RespCode) (d : Byte) : (s.respond c d).responses = s.responses ++ [responseWord c d] :=
  rfl
@[simp] theorem State.respond_resetIn (s : State) (c : RespCode) (d : Byte) : (s.respond c d).resetIn = s.resetIn :=
  rfl
@[simp] theorem State.respond_rxCkFrom (s : State) (c : RespCode) (d : Byte) : (s.respond c d).rxCkFrom = s.rxCkFrom :=
  rfl
@[simp] theorem State.respond_port (s : State) (c : RespCode) (d : Byte) : (s.respond c d).port = s.port :=
  rfl
@[simp] theorem State.respond_resets (s : State) (c : RespCode) (d : Byte) : (s.respond c d).resets = s.resets :=
  rfl

/-! ### scramblePbuf -/

@[simp] theorem State.scramblePbuf_builder (s : State) : (s.scramblePbuf).builder = s.builder := rfl
@[simp] theorem State.scramblePbuf_working (s : State) : (s.scramblePbuf).working = s.working := rfl
@[simp] theorem State.scramblePbuf_pbuf (s : State) : (s.scramblePbuf).pbuf = Memory.fill (Config.pbufAfterReset s.resets) :=
  rfl
@[simp] theorem State.scramblePbuf_result (s : State) : (s.scramblePbuf).result = s.result := rfl
@[simp] theorem State.scramblePbuf_obs (s : State) : (s.scramblePbuf).obs = s.obs := rfl
@[simp] theorem State.scramblePbuf_tx (s : State) : (s.scramblePbuf).tx = s.tx := rfl
@[simp] theorem State.scramblePbuf_responses (s : State) : (s.scramblePbuf).responses = s.responses := rfl
@[simp] theorem State.scramblePbuf_resetIn (s : State) : (s.scramblePbuf).resetIn = s.resetIn := rfl
@[simp] theorem State.scramblePbuf_rxCkFrom (s : State) : (s.scramblePbuf).rxCkFrom = s.rxCkFrom := rfl
@[simp] theorem State.scramblePbuf_port (s : State) : (s.scramblePbuf).port = s.port := rfl
@[simp] theorem State.scramblePbuf_resets (s : State) : (s.scramblePbuf).resets = s.resets + 1 := rfl

end Sys2Proof.Machine
end

