-- ==== Sys2Proof/Laws/Ops.lean ====
section
/-! SUPPORT. What each shared operation does, said once. -/

namespace Sys2Proof.Machine

/-- A data response: one word is added to the responses and nothing else changes. -/
theorem respondData_next {d : Byte} {s t : State} :
    respondData d s = .next t ↔ t = { s with responses := s.responses ++ [responseWord .ok d] } := by
  simp [respondData, State.respond, eq_comm]

/-- The end of a command responds OK with data 0x00. -/
theorem finish_next {s t : State} :
    finish s = .next t ↔ t = { s with responses := s.responses ++ [responseWord .ok 0x00] } :=
  respondData_next

/-- An error adds its response and changes nothing else (60_exceptions.md R110). -/
theorem raiseError_next {c : RespCode} {s t : State} :
    raiseError c s = .next t ↔ t = { s with responses := s.responses ++ [responseWord c 0x00] } := by
  simp [raiseError, State.respond, eq_comm]

theorem illegalWord_next {why : IllegalReason} {s t : State} :
    illegalWord why s = .next t ↔
      t = { s with responses := s.responses ++ [responseWord .illegal 0x00] } :=
  raiseError_next

/-- The soft reset, unit by unit (42_access.md R103). -/
theorem softReset_eq (m : BitVec 3) (s : State) : softReset m s = { s with
    builder := if m.getLsbD 0 = true then .reset else s.builder
    working := if m.getLsbD 1 = true then .reset else s.working
    result := if m.getLsbD 2 = true then .reset else s.result
    obs := if m.getLsbD 2 = true then .reset else s.obs } := by
  simp only [softReset]
  generalize m.getLsbD 0 = a
  generalize m.getLsbD 1 = b
  generalize m.getLsbD 2 = c
  cases a <;> cases b <;> cases c <;> rfl

/-- The reset of the core, field by field (70_reset_and_hazards.md R123). -/
theorem resetCore_eq (s : State) : s.resetCore = { s with
    builder := .reset, working := .reset, result := .reset, obs := .reset,
    pbuf := Memory.fill (Config.pbufAfterReset s.resets), resets := s.resets + 1 } := rfl

/-- Taking the next event: the head of the port, or none when it is empty. -/
theorem nextEvent_eq_some {s s' : State} {e : HostEvent} :
    nextEvent s = some (e, s') ↔ ∃ rest, s.port = e :: rest ∧ s' = { s with port := rest } := by
  unfold nextEvent
  split
  · next h => simp [h]
  · next e' rest h =>
    simp only [h, Option.some.injEq, Prod.mk.injEq, List.cons.injEq, State.setPort]
    constructor
    · rintro ⟨rfl, rfl⟩
      exact ⟨rest, ⟨rfl, rfl⟩, rfl⟩
    · rintro ⟨_, ⟨rfl, rfl⟩, rfl⟩
      exact ⟨rfl, rfl⟩

theorem nextEvent_eq_none {s : State} : nextEvent s = none ↔ s.port = [] := by
  unfold nextEvent
  split <;> simp_all

/-- A readable payload byte: a frame is held, the index is below DSIZE, and the byte is PBUF's. -/
theorem payloadAt_eq_some {i : Byte} {s : State} {b : Byte} :
    payloadAt i s = some b ↔
      s.result.res.isFrame = true ∧ i < s.result.dsize ∧ b = Memory.read s.pbuf i.toNat := by
  unfold payloadAt
  split
  · next h => simp [h, eq_comm]
  · next h =>
    simp only [reduceCtorEq, false_iff]
    exact fun h' => h ⟨h'.1, h'.2.1⟩

/-- The register map has a register exactly at the addresses 0x00 to 0x0F (10_state.md R22). -/
theorem regAt_eq_none {a : Byte} : regAt a = none ↔ 0x10 ≤ a := by
  simp [regAt, regMap, BitVec.le_def]

end Sys2Proof.Machine
end

