-- ==== Sys2Proof/Laws/Decoder.lean ====
section
/-! SUPPORT. What the parts of DEND give. -/

namespace Sys2Proof.Machine

/-- The outcome, by the phase the buffer ended in (41_decoder.md R87, R93). -/
theorem endOutcome_cases (w : Working) :
    ((w.phase = .hunt ∨ w.phase = .sync1) ∧ endOutcome w = (.noFrame, .noCause)) ∨
    ((w.phase = .topic ∨ w.phase = .size) ∧ endOutcome w = (.malformed, .hdrTrunc)) ∨
    ((w.phase = .type ∨ w.phase = .payload) ∧ endOutcome w = (.malformed, .length)) ∨
    ((w.phase = .cksum ∨ w.phase = .done) ∧ endOutcome w = classify w.wtopic w.wtype w.wsize) := by
  unfold endOutcome
  cases w.phase <;> simp

/-- The rows of `classify` (41_decoder.md R91) as cases. -/
theorem classify_cases (topic type size : Byte) :
    (topic = 0x08 ∧ classify topic type size = (.battery, .noCause)) ∨
    (topic = 0x0C ∧ type = 0x05 ∧ 6 ≤ size ∧ classify topic type size = (.weight, .noCause)) ∨
    (topic = 0x0C ∧ type = 0x05 ∧ size < 6 ∧ classify topic type size = (.malformed, .short)) ∨
    (topic ≠ 0x08 ∧ ¬ (topic = 0x0C ∧ type = 0x05) ∧
      classify topic type size = (.unrecog, .noCause)) := by
  unfold classify
  split
  · next h => exact .inl ⟨h, rfl⟩
  · next h8 =>
    split
    · next h =>
      split
      · next h6 => exact .inr (.inl ⟨h.1, h.2, h6, rfl⟩)
      · next h6 => exact .inr (.inr (.inl ⟨h.1, h.2, BitVec.not_le.1 h6, rfl⟩))
    · next h => exact .inr (.inr (.inr ⟨h8, h, rfl⟩))

/-- A buffer's end is a frame result only in CKSUM or DONE (41_decoder.md R87). -/
theorem endOutcome_isFrame {w : Working} (h : (endOutcome w).1.isFrame = true) :
    (w.phase = .cksum ∨ w.phase = .done) ∧ endOutcome w = classify w.wtopic w.wtype w.wsize := by
  unfold endOutcome at h ⊢
  cases hp : w.phase <;> simp_all [ResCode.isFrame]

/-- A committed result carries its result code. -/
@[simp] theorem commitResult_res (p : RxCkFrom) (w : Working) (m : Memory) (res : ResCode)
    (mc : MCause) : (commitResult p w m res mc).res = res := by
  unfold commitResult
  split <;> rfl

/-- A committed result carries its cause. -/
@[simp] theorem commitResult_mcause (p : RxCkFrom) (w : Working) (m : Memory) (res : ResCode)
    (mc : MCause) : (commitResult p w m res mc).mcause = mc := by
  unfold commitResult
  split <;> rfl

/-- A result that is no frame clears the frame view (41_decoder.md R94). -/
theorem commitResult_of_not_frame {p : RxCkFrom} {w : Working} {m : Memory} {res : ResCode}
    {mc : MCause} (h : res.isFrame = false) :
    commitResult p w m res mc = { ResultRegs.reset with res := res, mcause := mc } := by
  simp [commitResult, h]

/-- DEND completes in every state; this is its next state. -/
theorem execDend_eq (s : State) : execDend s = .next { s with
    result := commitResult s.rxCkFrom s.working s.pbuf (endOutcome s.working).1 (endOutcome s.working).2
    obs := commitObservables (endOutcome s.working).1 s.working s.pbuf s.obs
    working := .reset
    responses := s.responses ++ [responseWord .ok 0x00] } := rfl

end Sys2Proof.Machine
end

