-- ==== Sys2Proof/Laws/PerInstr.lean ====
section
/-! SUPPORT. The family of statements made once for each command. -/

namespace Sys2Proof.Laws.EncodesToWellFormedWord

/-- The word of a command is well formed: its opcode is defined and its reserved ARG bits are 0
(30_encoding.md R61, R62). -/
def Statement (i : Instr) : Prop := wordWellFormed (encode i) = true

theorem nop : Statement .nop := by rw [Statement]; decide
theorem srst (m : BitVec 3) : Statement (.srst m) := by
  unfold Statement
  revert m
  decide
theorem bstart (t : Byte) : Statement (.bstart t) := by
  simp [Statement, wordWellFormed, encode, cmd16, opcodeDefined, reservedClear, opRows]
theorem bbyte (b : Byte) : Statement (.bbyte b) := by
  simp [Statement, wordWellFormed, encode, cmd16, opcodeDefined, reservedClear, opRows]
theorem bend : Statement .bend := by rw [Statement]; decide
theorem dbyte (b : Byte) : Statement (.dbyte b) := by
  simp [Statement, wordWellFormed, encode, cmd16, opcodeDefined, reservedClear, opRows]
theorem dend : Statement .dend := by rw [Statement]; decide
theorem rdreg (a : Byte) : Statement (.rdreg a) := by
  simp [Statement, wordWellFormed, encode, cmd16, opcodeDefined, reservedClear, opRows]
theorem rdpay (i : Byte) : Statement (.rdpay i) := by
  simp [Statement, wordWellFormed, encode, cmd16, opcodeDefined, reservedClear, opRows]

end Sys2Proof.Laws.EncodesToWellFormedWord
end

