-- ==== Sys2Proof/Laws/Scanner.lean ====
section
/-! SUPPORT. Everything that the scanner and DBYTE can do. -/

namespace Sys2Proof.Machine

/-- The rows of the table of 41_decoder.md R83, as the cases of a scanner step. -/
theorem scanByte_cases {b : Byte} {w w' : Working} {m m' : Memory}
    (h : scanByte b w m = .ok (w', m')) :
    (w.phase = .hunt ∧ m' = m ∧ w' = { w with phase := if b = 0xEF then .sync1 else .hunt }) ∨
    (w.phase = .sync1 ∧ m' = m ∧
      w' = { w with phase := if b = 0xDD then .topic else if b = 0xEF then .sync1 else .hunt }) ∨
    (w.phase = .topic ∧ m' = m ∧ w' = { w with wtopic := b, phase := .size }) ∨
    (w.phase = .size ∧ m' = m ∧ w' = { w with wsize := b, phase := .type }) ∨
    (w.phase = .type ∧ m' = m ∧
      w' = { w with wtype := b, wcnt := 0, phase := if 0 < w.wsize then .payload else .cksum }) ∨
    (w.phase = .payload ∧ w.wcnt.toNat < pbufEntries ∧ m' = Memory.write m w.wcnt.toNat b ∧
      w' = { w with
        wcnt := w.wcnt + 1, phase := if w.wcnt + 1 = w.wsize then .cksum else .payload }) ∨
    (w.phase = .cksum ∧ w.ckcnt = 0 ∧ m' = m ∧ w' = { w with wck0 := b, ckcnt := 1 }) ∨
    (w.phase = .cksum ∧ w.ckcnt = 1 ∧ m' = m ∧
      w' = { w with wck1 := b, ckcnt := 2, phase := .done }) ∨
    (w.phase = .done ∧ m' = m ∧ w' = w) := by
  cases hp : w.phase <;> simp only [scanByte, hp] at h
  case payload =>
    split at h
    · simp_all
    · cases h
  case cksum =>
    split at h
    · simp_all
    · split at h
      · simp_all
      · cases h
  all_goals simp_all

/-- A scanner step keeps the payload RAM's canonical form. -/
theorem scanByte_wf {b : Byte} {w w' : Working} {m m' : Memory}
    (h : scanByte b w m = .ok (w', m')) (hm : Memory.wf m) : Memory.wf m' := by
  rcases scanByte_cases h with h | h | h | h | h | h | h | h | h
  case inr.inr.inr.inr.inr.inl => exact h.2.2.1 ▸ Memory.write_wf hm h.2.1
  case inr.inr.inr.inr.inr.inr.inl => exact h.2.2.1 ▸ hm
  case inr.inr.inr.inr.inr.inr.inr.inl => exact h.2.2.1 ▸ hm
  all_goals exact h.2.1 ▸ hm

/-- The states that the scanner faults in. -/
theorem scanByte_error {b : Byte} {w : Working} {m : Memory} {f : Fault}
    (h : scanByte b w m = .error f) :
    (f = .payloadIndex ∧ w.phase = .payload ∧ pbufEntries ≤ w.wcnt.toNat) ∨
      (f = .noScannerRow ∧ w.phase = .cksum ∧ w.ckcnt ≠ 0 ∧ w.ckcnt ≠ 1) := by
  cases hp : w.phase <;> simp only [scanByte, hp] at h
  case payload =>
    split at h
    · cases h
    · simp_all
  case cksum =>
    split at h
    · cases h
    · split at h
      · cases h
      · simp_all
  all_goals cases h

/-- DBYTE's next state is a scanner step from the working state with DACTIVE set, and a response. -/
theorem execDbyte_next {b : Byte} {s t : State} :
    execDbyte b s = .next t ↔ ∃ w m, scanByte b { s.working with dactive := true } s.pbuf = .ok (w, m) ∧
      t = { s with working := w, pbuf := m, responses := s.responses ++ [responseWord .ok 0x00] } := by
  unfold execDbyte
  split
  · next w m h =>
    simp only [h, finish_next, Except.ok.injEq, Prod.mk.injEq]
    constructor
    · rintro rfl
      exact ⟨w, m, ⟨rfl, rfl⟩, rfl⟩
    · rintro ⟨_, _, ⟨rfl, rfl⟩, rfl⟩
      rfl
  · next f h => simp [h]

end Sys2Proof.Machine
end

