-- ==== Sys2Proof/Laws/Step.lean ====
section
/-! SUPPORT. Everything that a step can do. -/

namespace Sys2Proof.Machine

/-- Every step that answers a next state ran a command, turned an ILLEGAL word away or took a reset level. -/
theorem step_cases {s t : State} (h : step s = .next t) :
    (∃ w rest i, s.port = .command w :: rest ∧ s.resetIn = false ∧ decodeCmd w = .cmd i ∧
      exec i { s with port := rest } = .next t) ∨
    (∃ w rest why, s.port = .command w :: rest ∧ s.resetIn = false ∧ decodeCmd w = .illegal why ∧
      t = { s with port := rest, responses := s.responses ++ [responseWord .illegal 0x00] }) ∨
    (∃ a rest, s.port = .reset a :: rest ∧ t = ({ s with port := rest } : State).setResetLevel a) := by
  unfold step at h
  split at h
  · cases h
  · next a s' he =>
    obtain ⟨rest, hp, rfl⟩ := nextEvent_eq_some.1 he
    cases h
    exact .inr (.inr ⟨a, rest, hp, rfl⟩)
  · next w s' he =>
    obtain ⟨rest, hp, rfl⟩ := nextEvent_eq_some.1 he
    split at h
    · cases h
    · next hr =>
      unfold runWord at h
      split at h
      · next i hi => exact .inl ⟨w, rest, i, hp, by simpa using hr, hi, h⟩
      · next why hi =>
        exact .inr (.inl ⟨w, rest, why, hp, by simpa using hr, hi, illegalWord_next.1 h⟩)

/-- With a command presented and the reset input released, the step runs its word. -/
theorem step_command {s : State} {w : Word} {rest : List HostEvent} (hp : s.port = .command w :: rest)
    (hr : s.resetIn = false) : step s = runWord w { s with port := rest } := by
  have he : nextEvent s = some (.command w, { s with port := rest }) :=
    nextEvent_eq_some.2 ⟨rest, hp, rfl⟩
  simp [step, he, hr]

/-- With a reset event presented, the step takes its level. -/
theorem step_reset {s : State} {a : Bool} {rest : List HostEvent} (hp : s.port = .reset a :: rest) :
   step s = .next (({ s with port := rest } : State).setResetLevel a) := by
  have he : nextEvent s = some (.reset a, { s with port := rest }) :=
    nextEvent_eq_some.2 ⟨rest, hp, rfl⟩
  simp [step, he]

end Sys2Proof.Machine
end

