-- ==== Sys2Proof/Tests/Slice0.lean ====
section
/-! SUPPORT. The model's own tests. Expected values are those of spec/95_test_vectors.md (the vector is named in
each comment) or are written out from the rule that is named. The last part shows, for every statement with
hypotheses, states and operands that meet them. -/

namespace Sys2Proof.Tests

open Sys2Proof.Machine

/-! ### Helpers -/

/-- The next state of an outcome. -/
def nextOf (o : Host.Outcome State Fault Refusal) : Option State :=
  match o with
  | .next s => some s
  | .fault _ => none
  | .refused _ => none

/-- The last response of an outcome's next state. -/
def answer (o : Host.Outcome State Fault Refusal) : Option Word :=
  (nextOf o).bind fun s => s.responses.getLast?

/-- The reset state with this builder. -/
def building (b : Builder) : State := { State.reset with builder := b }

/-- The reset state with this buffer fed so far. -/
def fed (w : Working) (m : Memory) : State := { State.reset with working := w, pbuf := m }

/-- The working state with this phase, a byte having been fed. -/
def inPhase (p : Phase) : Working := { Working.reset with phase := p, dactive := true }

/-- A frame open with an odd number of bytes accepted. -/
def openFrame : Builder := { bbusy := true, bpar := true, beven := 0xFF, bodd := 0x80, bmsg := 0x01 }

/-- The payload `64 00 00 00 02 02` of the vector V18. -/
def weightPayload : Memory := [(0, 0x64), (4, 0x02), (5, 0x02)]

/-- The buffer of V18 with its checksum bytes `66 02`. -/
def weightFed : Working :=
  { phase := .done, dactive := true, wtopic := 0x0C, wsize := 6, wtype := 0x05, wcnt := 6, ckcnt := 2,
    wck0 := 0x66, wck1 := 0x02 }

/-- The buffer `EF DD 08 00 AB` of the vector V9. -/
def batteryFed : Working := { inPhase .cksum with wtopic := 0x08, wtype := 0xAB }

/-- A longest payload, one byte short of its end. -/
def longFed : Working :=
  { inPhase .payload with wtopic := 0x10, wsize := 0xFF, wtype := 0x07, wcnt := 0xFE }

/-- The result registers of V18 with its checksum. -/
def weightRegs : ResultRegs :=
  { res := .weight, mcause := .noCause, ckstat := .matched, dtopic := 0x0C, dtype := 0x05, dsize := 6,
    dcke := 0x66, dcko := 0x02, drxcke := 0x66, drxcko := 0x02 }

/-- The observables of V18. -/
def weightObs : Observables :=
  { battery := 0, wmag := 0x0064, wexp := 2, wneg := true, bvalid := false, wvalid := true }

/-- After the decode of V18. -/
def holding : State :=
  { State.reset with pbuf := weightPayload, result := weightRegs, obs := weightObs }

/-- A state with this word presented. -/
def presenting (w : Word) (s : State) : State := { s with port := [.command w] }

/-! ### WellFormed: a word that each check refuses -/

-- 30_encoding.md R62: undefined opcodes at the ends of their ranges.
theorem test_undefined_opcodes_ill_formed :
    (([0x0200, 0x0F00, 0x1300, 0x1F00, 0x2200, 0x2F00, 0x3200, 0xFFFF] : List Word).all
      fun w => !opcodeDefined w && !wordWellFormed w) = true := by decide

-- R61: reserved ARG bits of NOP, SRST, BEND, DEND.
theorem test_reserved_bits_ill_formed :
    (([0x0001, 0x00FF, 0x0108, 0x01FF, 0x1201, 0x12FF, 0x2101, 0x21FF] : List Word).all
      fun w => opcodeDefined w && !reservedClear w && !wordWellFormed w) = true := by decide

theorem test_legal_words_well_formed :
    (([0x0000, 0x0107, 0x10FF, 0x11EF, 0x1200, 0x20DD, 0x2100, 0x30FF, 0x31FF] : List Word).all
      wordWellFormed) = true := by decide

/-! ### Decode: words written out bit by bit from the encoding of each command (R56, R60) -/

theorem test_decode_nop : decodeCmd 0b00000000_00000000 = .cmd .nop := by decide
theorem test_decode_srst : decodeCmd 0b00000001_00000101 = .cmd (.srst 0b101) := by decide
theorem test_decode_bstart : decodeCmd 0b00010000_00001101 = .cmd (.bstart 0b00001101) := by decide
theorem test_decode_bbyte : decodeCmd 0b00010001_10000001 = .cmd (.bbyte 0b10000001) := by decide
theorem test_decode_bend : decodeCmd 0b00010010_00000000 = .cmd .bend := by decide
theorem test_decode_dbyte : decodeCmd 0b00100000_11101111 = .cmd (.dbyte 0b11101111) := by decide
theorem test_decode_dend : decodeCmd 0b00100001_00000000 = .cmd .dend := by decide
theorem test_decode_rdreg : decodeCmd 0b00110000_00001011 = .cmd (.rdreg 0b00001011) := by decide
theorem test_decode_rdpay : decodeCmd 0b00110001_00000110 = .cmd (.rdpay 0b00000110) := by decide

theorem test_decode_illegal :
    decodeCmd 0b00000010_00000000 = .illegal (.undefinedOpcode 0x02) ∧
      decodeCmd 0b00000001_00001000 = .illegal (.reservedArgBits 0x01 0x08) := by decide

theorem test_table_words :
    decodeTableWord 16 0x0103 = some (.srst 3) ∧ decodeTableWord 16 0x11AB = some (.bbyte 0xAB) ∧
      decodeTableWord 16 0x1201 = none := by decide

/-! ### Reference functions -/

-- Vectors B1, B8, B11.
theorem test_build_frame :
    buildFrame 0x00 [0x02, 0x00] = [0xEF, 0xDD, 0x00, 0x02, 0x00, 0x02, 0x00] ∧
      buildFrame 0x01 [0xFF, 0xFF, 0xFF] = [0xEF, 0xDD, 0x01, 0xFF, 0xFF, 0xFF, 0xFE, 0xFF] ∧
      buildFrame 0x05 [1, 2, 3, 4, 5] = [0xEF, 0xDD, 0x05, 1, 2, 3, 4, 5, 0x09, 0x06] := by decide

-- Vectors V3, V6, V7, V11: outcomes of the reference decode.
theorem test_decode_ref :
    decodeRef [0xDD, 0xEF] = .noFrame ∧ decodeRef [0xEF, 0xDD, 0x08] = .malformed .hdrTrunc ∧
      decodeRef [0xEF, 0xDD, 0x08, 0x00] = .malformed .length ∧
      (decodeRef [0xEF, 0xEF, 0xDD, 0x08, 0x00, 0x2A]).observables Observables.reset
        = { Observables.reset with battery := 42, bvalid := true } := by decide

-- R66 to R69, and S1's words.
theorem test_assemble :
    assembleLine "HEARTBEAT".toList = some [0x1000, 0x1102, 0x1100, 0x1200] ∧
      assembleLine "SRST B|R ; soft".toList = some [0x0105] ∧
      assembleLine "RDREG WCTL".toList = some [0x300B] ∧ assembleLine "SRST 8".toList = none := by decide

theorem test_disassemble :
    disassemble 0x100D = "BSTART 0x0D".toList ∧ disassemble 0x2100 = "DEND".toList ∧
      disassemble 0x1201 = ".word 0x1201".toList := by decide

/-! ### One step of each command -/

-- 42_access.md R102.
theorem test_nop : exec .nop holding = .next { holding with responses := [0x0000] } := rfl

-- R103: B and R; the buffer in progress stays.
theorem test_srst_builder_results :
    (nextOf (exec (.srst 0b101) { holding with builder := openFrame, working := weightFed })).map
      (fun t => (t.builder, t.working, t.result, t.obs))
      = some (.reset, weightFed, .reset, .reset) := by decide

-- R103: D only.
theorem test_srst_working :
    (nextOf (exec (.srst 0b010) { holding with builder := openFrame, working := weightFed })).map
      (fun t => (t.builder, t.working, t.result))
      = some (openFrame, .reset, weightRegs) := by decide

-- Vector S1's first command; the sums of the frame before are overwritten.
theorem test_bstart :
    (nextOf (exec (.bstart 0x2A) (building { openFrame with bbusy := false }))).map
      (fun t => (t.tx, t.builder))
      = some ([0xEF, 0xDD, 0x2A], ⟨true, false, 0, 0, 0x2A⟩) := by decide

-- Vector BE3.
theorem test_bstart_seq :
    answer (exec (.bstart 0x00) (building openFrame)) = some 0x0200 ∧
      (nextOf (exec (.bstart 0x00) (building openFrame))).map (·.tx) = some [] := by decide

-- 40_builder.md R73, its corner case: BEVEN = 0xFF, b = 0x01 gives 0x00.
theorem test_bbyte_wraps :
    (nextOf (exec (.bbyte 0x01) (building { openFrame with bpar := false }))).map (·.builder)
      = some { openFrame with beven := 0x00, bpar := true } := by decide

-- Vector BE1.
theorem test_bbyte_seq : answer (exec (.bbyte 0x00) State.reset) = some 0x0200 := by decide

-- R74: BEVEN, then BODD.
theorem test_bend :
    (nextOf (exec .bend (building openFrame))).map (fun t => (t.tx, t.builder))
      = some ([0xFF, 0x80], { openFrame with bbusy := false }) := by decide

-- Vector BE2.
theorem test_bend_seq : answer (exec .bend State.reset) = some 0x0200 := by decide

-- 41_decoder.md R83: the last payload byte of the longest frame goes to PBUF[254].
theorem test_dbyte_last_payload :
    (nextOf (exec (.dbyte 0x11) (fed longFed []))).map (fun t => (t.working, t.pbuf))
      = some ({ longFed with phase := .cksum, wcnt := 0xFF }, [(254, 0x11)]) := by decide

-- R84, its corner case: a second 0xEF keeps SYNC1.
theorem test_dbyte_sync :
    (nextOf (exec (.dbyte 0xEF) (fed (inPhase .sync1) []))).map (·.working) = some (inPhase .sync1) := by
  decide

-- Vector V18 with the checksum of its CK column: MATCH.
theorem test_dend_weight :
    (nextOf (exec .dend (fed weightFed weightPayload))).map (fun t => (t.result, t.obs, t.working))
      = some (weightRegs, weightObs, .reset) := by decide

-- Vector V9.
theorem test_dend_battery :
    (nextOf (exec .dend (fed batteryFed []))).map (fun t => (dresultReg t.result, t.obs))
      = some (0x23, { Observables.reset with battery := 0x2B, bvalid := true }) := by decide

-- V18: WCTL = 0A. Section 2.2: STATUS = 0x3C in DONE.
theorem test_rdreg :
    answer (exec (.rdreg 0x0B) holding) = some 0x000A ∧
      answer (exec (.rdreg 0x00) (fed weightFed weightPayload)) = some 0x003C := by decide

-- 10_state.md R22.
theorem test_rdreg_badreg : answer (exec (.rdreg 0x10) holding) = some 0x0300 := by decide

-- 42_access.md R105, its example.
theorem test_rdpay :
    answer (exec (.rdpay 0) holding) = some 0x0064 ∧ answer (exec (.rdpay 6) holding) = some 0x0400 := by
  decide

-- 60_exceptions.md R109: BUSY before RANGE.
theorem test_rdpay_busy :
    answer (exec (.rdpay 255) { holding with working := inPhase .hunt }) = some 0x0500 := by decide

-- The step with a program placed as the host places it (log entry 8).
theorem test_fetch_word :
    (nextOf (step (State.reset.withFetchWord 16 0x102A))).map (fun t => (t.tx, t.responses, t.port))
      = some ([0xEF, 0xDD, 0x2A], [0x0000], []) := by decide

/-! ### Memory -/

-- Writing the value that an unlisted entry reads as removes the entry.
theorem test_write_removes :
    Memory.write [(1, 0x05), (3, 0x07)] 1 0x00 = [(3, 0x07)] ∧
      Memory.write [(1, 0x05), (3, 0x07)] 2 0x06 = [(1, 0x05), (2, 0x06), (3, 0x07)] := by decide

/-! ### States and operands that meet each statement's hypotheses -/

theorem weightFed_inv : weightFed.Inv :=
  ⟨by decide, by decide, by decide, by decide, by decide, by decide, by decide, by decide, by decide,
    by decide⟩

theorem longFed_inv : longFed.Inv :=
  ⟨by decide, by decide, by decide, by decide, by decide, by decide, by decide, by decide, by decide,
    by decide⟩

theorem inPhase_inv (p : Phase) (h : p = .hunt ∨ p = .sync1 ∨ p = .topic ∨ p = .size ∨ p = .type ∨ p = .cksum) :
    (inPhase p).Inv := by
  rcases h with h | h | h | h | h | h <;> subst h <;>
    exact ⟨by decide, by decide, by decide, by decide, by decide, by decide, by decide, by decide, by decide,
      by decide⟩

theorem weightRegs_inv : weightRegs.Inv :=
  ⟨by decide, by decide, by decide, by decide, by decide, by decide, by decide, by decide, by decide⟩

theorem weightPayload_wf : Memory.wf weightPayload := by decide

theorem weightObs_inv : weightObs.Inv := ⟨by decide, by decide, by decide⟩

/-- Every state that holds V18's result, with any builder and any legal working state, meets the invariant. -/
theorem holding_inv (b : Builder) (w : Working) (p : List HostEvent) (h : w.Inv) :
    State.Inv { holding with builder := b, working := w, port := p } :=
  ⟨weightPayload_wf, h, weightRegs_inv, weightObs_inv, nofun, fun _ => rfl, nofun, nofun⟩

theorem working_reset_inv : Working.Inv Working.reset :=
  ⟨by decide, by decide, by decide, by decide, by decide, by decide, by decide, by decide, by decide,
    by decide⟩

theorem result_reset_inv : ResultRegs.Inv ResultRegs.reset :=
  ⟨by decide, by decide, by decide, by decide, by decide, by decide, by decide, by decide, by decide⟩

theorem observables_reset_inv : Observables.Inv Observables.reset := ⟨by decide, by decide, by decide⟩

/-- A state in which the reset input is asserted, after one frame byte was emitted. -/
def inReset (p : List HostEvent) : State := { State.reset with tx := [0xEF], resetIn := true, port := p }

theorem inReset_inv (p : List HostEvent) : (inReset p).Inv :=
  ⟨Memory.wf_nil, working_reset_inv, result_reset_inv, observables_reset_inv, nofun, nofun,
    fun _ => ⟨rfl, rfl, rfl, rfl⟩, nofun⟩

theorem witness_DecodeEncodeAgree : decodeCmd 0x0107 = .cmd (.srst 7) ∧ decodeCmd 0x31FF = .cmd (.rdpay 255) := by
  decide

theorem witness_WordMatchesOneRowOrIsIllegal :
    wordWellFormed 0x0107 = true ∧ wordWellFormed 0x0108 = false := by decide

theorem witness_ReservedArgBitsAreIllegal :
    (0x01 : Byte) ≠ 0x00 ∧ (0xFF : Byte) ≠ 0x00 ∧ (0x08 : Byte).extractLsb' 3 5 ≠ 0 ∧
      (0xFF : Byte).extractLsb' 3 5 ≠ 0 := by decide

theorem witness_UndefinedOpcodesAreIllegalWithoutEffect :
    (∀ op ∈ ([0x02, 0x0F, 0x13, 0x1F, 0x22, 0x2F, 0x32, 0xFF] : List Byte),
      (0x02 ≤ op ∧ op ≤ 0x0F) ∨ (0x13 ≤ op ∧ op ≤ 0x1F) ∨ (0x22 ≤ op ∧ op ≤ 0x2F) ∨ 0x32 ≤ op) ∧
    (presenting 0x1201 holding).port = .command 0x1201 :: [] ∧
    (presenting 0x1201 holding).resetIn = false ∧
    decodeCmd 0x1201 = .illegal (.reservedArgBits 0x12 0x01) := by decide

theorem witness_StepRunsDecodedCommand :
    (presenting 0x3000 holding).port = .command 0x3000 :: [] ∧
      (presenting 0x3000 holding).resetIn = false ∧ decodeCmd 0x3000 = .cmd (.rdreg 0x00) := by decide

theorem witness_StepIsRefusedWithoutACommand :
    holding.port = [] ∧ (inReset [.command 0x0000]).port = .command 0x0000 :: [] ∧
      (inReset [.command 0x0000]).resetIn = true := by decide

theorem witness_InterfacesAppendOnly :
    (∃ t, step (presenting 0x1200 (building openFrame)) = .next t ∧ t.tx ≠ []) ∧
      ∃ t, step { building openFrame with port := [.reset true] } = .next t :=
  ⟨⟨_, rfl, by decide⟩, _, rfl⟩

theorem witness_EveryCommandCompletes :
    State.Inv { holding with working := longFed, port := [.command 0x20FF] } ∧
      State.Inv { holding with builder := openFrame, port := [.command 0x1201] } :=
  ⟨holding_inv _ _ _ longFed_inv, holding_inv _ _ _ working_reset_inv⟩

theorem witness_ErrorCodesFollowTheirCauses :
    answer (step (presenting 0x0000 holding)) = some 0x0000 ∧
      answer (step (presenting 0x1201 holding)) = some 0x0100 ∧
      answer (step (presenting 0x1200 holding)) = some 0x0200 ∧
      answer (step (presenting 0x3010 holding)) = some 0x0300 ∧
      answer (step (presenting 0x3106 holding)) = some 0x0400 ∧
      answer (step (presenting 0x3106 { holding with working := weightFed })) = some 0x0500 := by decide

theorem witness_BstartOpensFrame : State.reset.builder.bbusy = false ∧ (building openFrame).builder.bbusy = true := by
  decide

theorem witness_BbyteAppendsPayloadByte :
    openFrame.bbusy = true ∧ openFrame.bpar = true ∧ { openFrame with bpar := false }.bbusy = true ∧
      State.reset.builder.bbusy = false := by decide

theorem witness_BendEmitsChecksum : openFrame.bbusy = true ∧ State.reset.builder.bbusy = false := by decide

theorem witness_AccumulatorsHoldAlternatingSums : holding.builder.bbusy = false := by decide

theorem witness_BuildEmitsReferenceFrame : (building { openFrame with bbusy := false }).builder.bbusy = false := by
  decide

/-- One working state of the invariant for each row of the table, and both values of CKCNT. -/
theorem witness_DbyteFollowsScannerTable :
    (inPhase .hunt).Inv ∧ (inPhase .sync1).Inv ∧ (inPhase .topic).Inv ∧ (inPhase .size).Inv ∧
      (inPhase .type).Inv ∧ longFed.Inv ∧ (inPhase .cksum).Inv ∧
      Working.Inv { inPhase .cksum with ckcnt := 1, wck0 := 0x66 } ∧ weightFed.Inv :=
  ⟨inPhase_inv _ (by decide), inPhase_inv _ (by decide), inPhase_inv _ (by decide), inPhase_inv _ (by decide),
    inPhase_inv _ (by decide), longFed_inv, inPhase_inv _ (by decide),
    ⟨by decide, by decide, by decide, by decide, by decide, by decide, by decide, by decide, by decide,
      by decide⟩, weightFed_inv⟩

theorem witness_DbyteStoresAtPayloadCount :
    Memory.wf weightPayload ∧ longFed.phase = .payload ∧ longFed.wcnt < longFed.wsize ∧
      longFed.wcnt.toNat = 254 := by decide

theorem witness_DbyteFaultsOutsideTheTable :
    { longFed with wcnt := 0xFF }.phase = .payload ∧ { longFed with wcnt := 0xFF }.wcnt = 0xFF ∧
      { inPhase .cksum with ckcnt := 2 }.ckcnt = 2 ∧ { inPhase .cksum with ckcnt := 3 }.ckcnt = 3 := by decide

theorem witness_DbyteKeepsResultsReadable : ∃ t, exec (.dbyte 0xEF) holding = .next t := ⟨_, rfl⟩

/-- HUNT after other bytes, a sync at index 1, and a buffer with no sync. -/
theorem witness_ScannerFindsFirstSync :
    (inPhase .hunt).Inv ∧ (inPhase .hunt).phase = .hunt ∧ Memory.wf weightPayload ∧
      FirstSyncAt [0xEF, 0xEF, 0xDD, 0x08, 0x00, 0x2A] 1 ∧ ∀ j, ¬ SyncAt [0xDD, 0xEF] j := by
  refine ⟨inPhase_inv _ (by decide), rfl, by decide, ⟨by unfold SyncAt; decide, ?_⟩, ?_⟩
  · unfold SyncAt
    decide
  · rintro (_ | _ | j) <;> simp [SyncAt]

theorem witness_ScannerNeverRescans :
    longFed.phase.pastSync = true ∧ (∃ t, execAll ([0xEF, 0xDD].map .dbyte) (fed weightFed []) = .next t) ∧
      weightFed.phase = .done ∧ weightFed.dactive = true :=
  ⟨rfl, ⟨_, rfl⟩, rfl, rfl⟩

/-- Each phase, and each row of the classification, sizeField 6 and 5 for a weight frame. -/
theorem witness_DendOutcomeTable :
    ((nextOf (exec .dend (fed (inPhase .sync1) []))).map fun t => (t.result.res, t.result.mcause))
        = some (.noFrame, .noCause) ∧
      ((nextOf (exec .dend (fed (inPhase .size) []))).map fun t => (t.result.res, t.result.mcause))
        = some (.malformed, .hdrTrunc) ∧
      ((nextOf (exec .dend (fed longFed []))).map fun t => (t.result.res, t.result.mcause))
        = some (.malformed, .length) ∧
      ((nextOf (exec .dend (fed batteryFed []))).map fun t => (t.result.res, t.result.mcause))
        = some (.battery, .noCause) ∧
      ((nextOf (exec .dend (fed weightFed []))).map fun t => (t.result.res, t.result.mcause))
        = some (.weight, .noCause) ∧
      ((nextOf (exec .dend (fed { weightFed with wsize := 5, wcnt := 5 } []))).map
        fun t => (t.result.res, t.result.mcause)) = some (.malformed, .short) ∧
      ((nextOf (exec .dend (fed { weightFed with wtype := 0x06 } []))).map
        fun t => (t.result.res, t.result.mcause)) = some (.unrecog, .noCause) := by decide

theorem witness_DendCommitsResultRegisters :
    ((nextOf (exec .dend (fed { weightFed with wck1 := 0x03 } weightPayload))).map (·.result.ckstat))
        = some .mismatched ∧
      ((nextOf (exec .dend (fed batteryFed []))).map (·.result.ckstat)) = some .absent ∧
      ((nextOf (exec .dend (fed longFed []))).map (·.result.ckstat)) = some .notChecked := by decide

theorem witness_DendCommitsBattery : batteryFed.phase = .cksum ∧ batteryFed.wtopic = 0x08 := by decide

theorem witness_DendCommitsWeight :
    weightFed.phase = .done ∧ weightFed.wtopic = 0x0C ∧ weightFed.wtype = 0x05 ∧
      weightFed.wsize.toNat = 6 := by decide

theorem witness_UnitExponentTable : (0x05 : Byte) ≤ 0x05 ∧ (0x05 : Byte) ≤ 0xFF := by decide

/-- A command of each clause: not DEND, and DEND with each kind of result. -/
theorem witness_ObservablesWrittenOnlyByTheirResult :
    (∃ t, exec (.srst 3) holding = .next t) ∧ clearsResults (.srst 3) = false ∧
      ((nextOf (exec .dend (fed (inPhase .hunt) []))).map (·.result.res)) = some .noFrame ∧
      ((nextOf (exec .dend (fed batteryFed []))).map (·.result.res)) = some .battery ∧
      ((nextOf (exec .dend (fed weightFed []))).map (·.result.res)) = some .weight :=
  ⟨⟨_, rfl⟩, by decide, by decide, by decide, by decide⟩

theorem witness_ValidatorSumsItsRegion :
    ([0x64, 0x00, 0x00, 0x00, 0x02, 0x02] : List Byte)
      = (List.range weightFed.wsize.toNat).map (Memory.read weightPayload) := by decide

/-- The same frame with no checksum byte and with both. -/
theorem witness_ValidatorIsInformational :
    let w : Working := { weightFed with phase := .cksum, ckcnt := 0, wck0 := 0, wck1 := 0 }
    (weightFed.phase = w.phase ∨ (weightFed.phase = .cksum ∨ weightFed.phase = .done) ∧
        (w.phase = .cksum ∨ w.phase = .done)) ∧
      weightFed.wtopic = w.wtopic ∧ weightFed.wsize = w.wsize ∧ weightFed.wtype = w.wtype := by decide

theorem witness_DecodeAgreesWithReference :
    State.Inv holding ∧ holding.working.phase = .hunt ∧ holding.working.dactive = false :=
  ⟨holding_inv _ _ _ working_reset_inv, rfl, rfl⟩

/-- A buffer without a sync, and one whose sizeField exceeds it (the vector V8). -/
theorem witness_SourceDecodeProperties :
    State.Inv holding ∧ holding.working = .reset ∧ (∀ j, ¬ SyncAt [0xDD, 0xEF] j) ∧
      FirstSyncAt [0xEF, 0xDD, 0x0C, 0x06, 0x05, 0x64, 0x00] 0 ∧ 7 < 0 + (6 : Byte).toNat + 5 := by
  refine ⟨holding_inv _ _ _ working_reset_inv, rfl, ?_, ⟨by unfold SyncAt; decide, by simp⟩, by decide⟩
  rintro (_ | _ | j) <;> simp [SyncAt]

theorem witness_SrstResetsSelectedUnits :
    (0x08 : Byte).extractLsb' 3 5 ≠ 0 ∧ (0xF8 : Byte).extractLsb' 3 5 ≠ 0 := by decide

theorem witness_RdregReadsTheMap : (0x10 : Byte) ≤ 0x10 ∧ (0x10 : Byte) ≤ 0xFF := by decide

/-- BUSY; RANGE with no frame and at index DSIZE; a byte at index DSIZE - 1. -/
theorem witness_RdpayReadsHeldPayload :
    (inPhase .hunt).dactive = true ∧ holding.working.dactive = false ∧ State.reset.result.res = .noResult ∧
      holding.result.dsize.toNat ≤ (6 : Byte).toNat ∧ holding.result.res = .weight ∧
      (5 : Byte).toNat < holding.result.dsize.toNat := by decide

theorem witness_AccessCommandsKeepState :
    isReadCommand .nop = true ∧ isReadCommand (.rdreg 0x10) = true ∧ isReadCommand (.rdpay 0) = true ∧
      ∃ t, exec (.srst 7) holding = .next t :=
  ⟨rfl, rfl, rfl, _, rfl⟩

/-- Each flag set and cleared by the command that the statement names. -/
theorem witness_FlagWriters :
    ((nextOf (exec (.bstart 0) State.reset)).map (·.builder.bbusy)) = some true ∧
      ((nextOf (exec .bend (building openFrame))).map (·.builder.bbusy)) = some false ∧
      ((nextOf (exec (.bbyte 0) (building { openFrame with bpar := false }))).map (·.builder.bpar)) = some true ∧
      ((nextOf (exec (.bbyte 0) (building openFrame))).map (·.builder.bpar)) = some false ∧
      ((nextOf (exec (.dbyte 0xEF) State.reset)).map fun t => (t.working.dactive, t.working.phase))
        = some (true, .sync1) ∧
      ((nextOf (exec .dend (fed weightFed []))).map fun t => (t.working.dactive, t.working.phase))
        = some (false, .hunt) ∧
      ((nextOf (exec .dend (fed batteryFed []))).map (·.obs.bvalid)) = some true ∧
      ((nextOf (exec .dend (fed weightFed []))).map (·.obs.wvalid)) = some true ∧
      ((nextOf (exec (.srst 4) holding)).map (·.obs.wvalid)) = some false ∧
      ((nextOf (exec (.srst 4) { holding with obs := { weightObs with bvalid := true } })).map
        (·.obs.bvalid)) = some false := by decide

theorem witness_ResultRegistersWriters :
    (∃ t, exec (.srst 3) holding = .next t) ∧ Instr.srst 3 ≠ .dend ∧ clearsResults (.srst 3) = false :=
  ⟨⟨_, rfl⟩, by decide, by decide⟩

theorem witness_PayloadRamWriters :
    ((nextOf (exec (.dbyte 0x11) (fed longFed []))).map fun t => decide (t.pbuf ≠ [])) = some true := by decide

theorem witness_UnitsAreIndependent :
    isBuilderCommand .bend = true ∧ isDecoderCommand .dend = true ∧
      (∃ t, exec .bend { holding with builder := openFrame, working := weightFed } = .next t ∧
        ∃ u, exec .dend t = .next u) ∧
      ∃ t, exec .dend { holding with builder := openFrame, working := weightFed } = .next t :=
  ⟨rfl, rfl, ⟨_, rfl, _, rfl⟩, _, rfl⟩

theorem witness_ResetStateValues :
    (0x0F : Byte) ≤ 0x0F ∧ ∃ t, step { building openFrame with port := [.reset true] } = .next t :=
  ⟨by decide, _, rfl⟩

theorem witness_ResetInputResetsTheCore :
    ({ building openFrame with port := [.reset true] } : State).port = .reset true :: [] ∧
      (inReset [.command 0x2100]).port = .command 0x2100 :: [] ∧
      (inReset [.command 0x2100]).resetIn = true ∧
      (inReset [.reset false]).Inv ∧ (inReset [.reset false]).port = .reset false :: [] :=
  ⟨rfl, rfl, rfl, inReset_inv _, rfl⟩

theorem witness_FullSoftResetIsTheResetInput :
    ({ holding with builder := openFrame } : State).resetIn = false := by decide

theorem witness_StepKeepsInvariant :
    State.Inv { holding with working := weightFed, port := [.command 0x2100] } ∧
      ∃ t, step { holding with working := weightFed, port := [.command 0x2100] } = .next t :=
  ⟨holding_inv _ _ _ weightFed_inv, _, rfl⟩

theorem witness_InvariantStatesNeverFault : State.Inv { holding with working := longFed } :=
  holding_inv _ _ _ longFed_inv

/-- The same frame held, with another byte in an entry past DSIZE. -/
theorem witness_DeadPayloadEntriesAreNotObservable :
    let t : State := { holding with pbuf := weightPayload ++ [(200, 0x77)] }
    State.Inv holding ∧ State.Inv t ∧
      (∀ i, LiveEntry holding i → Memory.read holding.pbuf i = Memory.read t.pbuf i) ∧
      Memory.read holding.pbuf 200 ≠ Memory.read t.pbuf 200 := by
  refine ⟨holding_inv _ _ _ working_reset_inv,
    ⟨by decide, working_reset_inv, weightRegs_inv, weightObs_inv, by decide, by decide, nofun, nofun⟩, ?_,
    by decide⟩
  have h : ∀ i < 6, Memory.read holding.pbuf i = Memory.read (weightPayload ++ [(200, 0x77)]) i := by decide
  rintro i (hi | ⟨-, hi⟩)
  · exact absurd hi (Nat.not_lt_zero i)
  · exact h i hi

/-- The same result with RX_CK_FROM 3 and its checksum: region `06 05 64 00 00 00 02 02`. -/
theorem witness_OutcomesIgnoreRxCkFrom :
    let t : State :=
      { holding with rxCkFrom := .from3, result := { weightRegs with ckstat := .mismatched, dcke := 0x6C, dcko := 0x07 } }
    SameButValidator holding t ∧ ∃ s', step (presenting 0x300C holding) = .next s' :=
  ⟨⟨rfl, rfl, rfl, rfl, rfl, rfl, rfl, rfl, rfl⟩, _, rfl⟩

end Sys2Proof.Tests
end

/-! ## The state: registers, reset values, what of PBUF can be observed (10_state.md) -/

/-! ### The register map -/

namespace Sys2Proof.Machine

/-- An RDREG of a mapped address answers OK with the register's byte and changes nothing else
(42_access.md R104). -/
theorem exec_rdreg_mapped {a : Byte} {r : RegName} (h : regAt a = some r) (s : State) :
    exec (.rdreg a) s = .next { s with responses := s.responses ++ [0x00#8 ++ regValue s r] } := by
  have hexec : exec (.rdreg a) s = execRdreg a s := rfl
  rw [hexec, execRdreg, h]
  exact respondData_next.2 rfl

/-- An RDREG outside the map answers BADREG and changes nothing else (42_access.md R104). -/
theorem exec_rdreg_unmapped {a : Byte} (h : regAt a = none) (s : State) :
    exec (.rdreg a) s = .next { s with responses := s.responses ++ [0x0300] } := by
  have hexec : exec (.rdreg a) s = execRdreg a s := rfl
  rw [hexec, execRdreg, h]
  exact raiseError_next.2 rfl

/-- The register map of 10_state.md R22 as address and value pairs, in address order. -/
def regTable (s : State) : List (Byte × Byte) :=
  regMap.zipIdx.map fun entry => (BitVec.ofNat 8 entry.2, regValue s entry.1)

/-- Each row of the table is a mapped address with what its register reads. -/
theorem regAt_of_mem_regTable {s : State} {p : Byte × Byte} (hp : p ∈ regTable s) :
    ∃ r, regAt p.1 = some r ∧ p.2 = regValue s r := by
  obtain ⟨⟨r, k⟩, hmem, rfl⟩ := List.mem_map.1 hp
  have hget : regMap[k]? = some r := List.mem_zipIdx_iff_getElem?.1 hmem
  have hk : k < 16 := (List.getElem?_eq_some_iff.1 hget).1
  refine ⟨r, ?_, rfl⟩
  simpa [regAt, Nat.mod_eq_of_lt (show k < 256 by omega)] using hget

/-- Every ARG of OP 0x30 is an RDREG of that address. -/
theorem decodeCmd_rdreg (a : Byte) : decodeCmd (0x30#8 ++ a) = .cmd (.rdreg a) := by
  simp [decodeCmd, opField, argField]

/-- Settles O37: RDREG, row by row of the map and outside it. -/
theorem rdregReadsTheMap : Obligations.RdregReadsTheMap := by
  unfold Obligations.RdregReadsTheMap
  intro s
  refine ⟨decodeCmd_rdreg, fun p hp => ?_, fun a ha => exec_rdreg_unmapped (regAt_eq_none.2 ha) s⟩
  obtain ⟨r, hr, hval⟩ := regAt_of_mem_regTable (s := s) hp
  rw [hval]
  exact exec_rdreg_mapped hr s

/-! ### The reset state -/

/-- "Every register of the map reads 0x00 after reset" (10_state.md R34). -/
theorem regValue_reset (r : RegName) : regValue State.reset r = 0x00 := by
  cases r <;> decide

/-- A change of the reset input neither emits nor removes TX bytes (70_reset_and_hazards.md R123). -/
@[simp] theorem State.setResetLevel_tx (s : State) (asserted : Bool) :
    (s.setResetLevel asserted).tx = s.tx := by
  cases asserted <;> rfl

/-- Settles O46: the reset values field by field, then the TX stream under a reset event, then the registers. -/
theorem resetStateValues : Obligations.ResetStateValues := by
  unfold Obligations.ResetStateValues
  refine ⟨rfl, rfl, rfl, rfl, rfl, fun s t rest hp ht => ?_, fun a ha => ?_⟩
  · rw [step_reset hp, Host.Outcome.next.injEq] at ht
    simp [← ht]
  · have hmapped : regAt a ≠ none := fun h => by
      have := regAt_eq_none.1 h
      bv_omega
    obtain ⟨r, hr⟩ := Option.ne_none_iff_exists'.1 hmapped
    rw [exec_rdreg_mapped hr, regValue_reset]
    rfl

/-! ### The packed registers, bit by bit -/

/-- A one-bit field occupies bit 0. -/
@[simp] theorem getElem_bit (b : Bool) (i : Nat) (hi : i < 8) :
    (bit b)[i] = (decide (i = 0) && b) := by
  cases b <;> simp [bit]

/-- The one-bit fields of STATUS (10_state.md R23). -/
theorem statusReg_flags (s : State) :
    (statusReg s).getLsbD 0 = s.builder.bbusy ∧ (statusReg s).getLsbD 1 = s.builder.bpar ∧
      (statusReg s).getLsbD 2 = s.working.dactive ∧
      (statusReg s).getLsbD 6 = s.obs.bvalid ∧ (statusReg s).getLsbD 7 = s.obs.wvalid := by
  simp [statusReg]

/-- PHASE stands in STATUS bits 5:3 (10_state.md R23). -/
theorem statusReg_phase (s : State) : (statusReg s).extractLsb' 3 3 = s.working.phase.toBits := by
  refine BitVec.eq_of_getLsbD_eq fun i hi => ?_
  interval_cases i <;> simp [statusReg]

/-- RES, MCAUSE and CKSTAT stand in DRESULT bits 2:0, 4:3 and 6:5 (10_state.md R24). -/
theorem dresultReg_fields (r : ResultRegs) :
    (dresultReg r).extractLsb' 0 3 = r.res.toBits ∧ (dresultReg r).extractLsb' 3 2 = r.mcause.toBits ∧
      (dresultReg r).extractLsb' 5 2 = r.ckstat.toBits ∧ (dresultReg r).getLsbD 7 = false := by
  refine ⟨BitVec.eq_of_getLsbD_eq fun i hi => ?_, BitVec.eq_of_getLsbD_eq fun i hi => ?_,
    BitVec.eq_of_getLsbD_eq fun i hi => ?_, by simp [dresultReg]⟩
  · interval_cases i <;> simp [dresultReg]
  · interval_cases i <;> simp [dresultReg]
  · interval_cases i <;> simp [dresultReg]

/-- WEXP and WNEG stand in WCTL bits 2:0 and 3, under four zero bits (10_state.md R27). -/
theorem wctlReg_fields (o : Observables) :
    (wctlReg o).extractLsb' 0 3 = o.wexp ∧ (wctlReg o).getLsbD 3 = o.wneg ∧
      (wctlReg o).extractLsb' 4 4 = 0 := by
  refine ⟨BitVec.eq_of_getLsbD_eq fun i hi => ?_, by simp [wctlReg],
    BitVec.eq_of_getLsbD_eq fun i hi => ?_⟩
  · interval_cases i <;> simp [wctlReg]
  · interval_cases i <;> simp [wctlReg]

/-- `battery` stands in BATTERY bits 6:0, under a zero bit (10_state.md R28). -/
theorem batteryReg_fields (o : Observables) :
    (batteryReg o).extractLsb' 0 7 = o.battery ∧ (batteryReg o).getLsbD 7 = false := by
  refine ⟨BitVec.eq_of_getLsbD_eq fun i hi => ?_, by simp [batteryReg]⟩
  simp [batteryReg, hi, show i < 8 by omega]

/-- Settles O38, register by register. -/
theorem packedRegisterFields : Obligations.PackedRegisterFields := by
  unfold Obligations.PackedRegisterFields
  intro s
  obtain ⟨hbbusy, hbpar, hdactive, hbvalid, hwvalid⟩ := statusReg_flags s
  exact ⟨⟨hbbusy, hbpar, hdactive, statusReg_phase s, hbvalid, hwvalid⟩, dresultReg_fields s.result,
    wctlReg_fields s.obs, batteryReg_fields s.obs⟩

/-! ### The weight -/

/-- Scaled by its power of ten the weight is the signed magnitude, exactly (10_state.md R29). -/
theorem weightValue_mul_pow (o : Observables) : weightValue o * 10 ^ o.wexp.toNat =
    (if o.wneg then -(o.wmag.toNat : ℚ) else o.wmag.toNat) := by
  have hpow : (10 : ℚ) ^ o.wexp.toNat ≠ 0 := by positivity
  rw [weightValue, div_mul_cancel₀ _ hpow]
  cases o.wneg <;> simp

/-- The sign drops out of the weight's magnitude. -/
theorem abs_weightValue (o : Observables) :
    |weightValue o| = (o.wmag.toNat : ℚ) / 10 ^ o.wexp.toNat := by
  have hpow : (0 : ℚ) < 10 ^ o.wexp.toNat := by positivity
  have hsign : |if o.wneg then (-1 : ℚ) else 1| = 1 := by cases o.wneg <;> simp
  rw [weightValue, abs_div, abs_mul, hsign, one_mul, Nat.abs_cast, abs_of_pos hpow]

/-- Settles O54: the power of ten cancels, and dividing a 16-bit magnitude by it only makes it smaller. -/
theorem weightIsExactAndBounded : Obligations.WeightIsExactAndBounded := by
  unfold Obligations.WeightIsExactAndBounded
  refine fun o => ⟨weightValue_mul_pow o, ?_⟩
  have hmag : (o.wmag.toNat : ℚ) ≤ 65535 := by exact_mod_cast Nat.le_of_lt_succ o.wmag.isLt
  have hpow : (1 : ℚ) ≤ 10 ^ o.wexp.toNat := one_le_pow₀ (by norm_num)
  calc |weightValue o| = (o.wmag.toNat : ℚ) / 10 ^ o.wexp.toNat := abs_weightValue o
    _ ≤ o.wmag.toNat := div_le_self (Nat.cast_nonneg _) hpow
    _ ≤ 65535 := hmag

/-! ### Entries of PBUF that nothing can observe -/

/-- Two payload RAMs that read the same at every index below `n`. -/
def Memory.SameBelow (n : Nat) (m k : Memory) : Prop := ∀ i < n, Memory.read m i = Memory.read k i

/-- The same byte written at the same index: the reads agree there, and elsewhere where they did before. -/
theorem Memory.read_write_congr {m k : Memory} {i j : Nat} {b : Byte} (hm : Memory.wf m)
    (hk : Memory.wf k) (h : j ≠ i → Memory.read m j = Memory.read k j) :
    Memory.read (Memory.write m i b) j = Memory.read (Memory.write k i b) j := by
  by_cases hj : j = i
  · rw [hj, Memory.read_write_same hm, Memory.read_write_same hk]
  · rw [Memory.read_write_other hj, Memory.read_write_other hj, h hj]

theorem Memory.SameBelow.firstBytes {n : Nat} {m k : Memory} (h : Memory.SameBelow n m k) :
    Memory.firstBytes m n = Memory.firstBytes k n :=
  List.map_congr_left fun i hi => h i (List.mem_range.1 hi)

/-- The result registers see PBUF below WSIZE only, and only for a frame (41_decoder.md R94, R97). -/
theorem commitResult_congr {p : RxCkFrom} {w : Working} {m k : Memory} {res : ResCode} {mc : MCause}
    (h : res.isFrame = true → Memory.SameBelow w.wsize.toNat m k) :
    commitResult p w m res mc = commitResult p w k res mc := by
  unfold commitResult
  split
  · next hres => simp only [rxChecksum, (h hres).firstBytes]
  · rfl

/-- The observables see PBUF below 6 only, and only for a weight frame (41_decoder.md R89, R95). -/
theorem commitObservables_congr {res : ResCode} {w : Working} {m k : Memory} {o : Observables}
    (h : res = .weight → Memory.SameBelow 6 m k) :
    commitObservables res w m o = commitObservables res w k o := by
  cases res with
  | weight =>
    have hread := h rfl
    simp only [commitObservables, commitWeight, hread 0 (by omega), hread 1 (by omega),
      hread 4 (by omega), hread 5 (by omega)]
  | noResult | noFrame | malformed | battery | unrecog => rfl

/-- A held frame's DSIZE is the sizeField received (41_decoder.md R94). -/
theorem commitResult_dsize {p : RxCkFrom} {w : Working} {m : Memory} {res : ResCode} {mc : MCause}
    (h : res.isFrame = true) : (commitResult p w m res mc).dsize = w.wsize := by
  simp [commitResult, h]

/-- A frame result comes after the whole payload (41_decoder.md R83, R87). -/
theorem Working.Inv.wcnt_of_isFrame {w : Working} (hw : w.Inv) (h : (endOutcome w).1.isFrame = true) :
    w.wcnt = w.wsize :=
  hw.afterPayload (endOutcome_isFrame h).1

/-- A weight frame has a sizeField of at least 6 (41_decoder.md R91, R92). -/
theorem wsize_of_endOutcome_weight {w : Working} (h : (endOutcome w).1 = .weight) : 6 ≤ w.wsize := by
  have hclass := (endOutcome_isFrame (w := w) (by rw [h]; rfl)).2
  rw [hclass] at h
  rcases classify_cases w.wtopic w.wtype w.wsize with
    ⟨-, hrow⟩ | ⟨-, -, hsize, -⟩ | ⟨-, -, -, hrow⟩ | ⟨-, -, hrow⟩
  case inr.inl => exact hsize
  all_goals rw [hrow] at h; cases h

/-- A scanner step does not read the payload RAM: it either keeps it, and WCNT does not grow, or stores the
byte at WCNT and counts it (41_decoder.md R83). -/
theorem scanByte_pbuf_blind {b : Byte} {w w' : Working} {m m' : Memory}
    (h : scanByte b w m = .ok (w', m')) :
    (w'.wcnt.toNat ≤ w.wcnt.toNat ∧ m' = m ∧ ∀ k, scanByte b w k = .ok (w', k)) ∨
    (w'.wcnt.toNat = w.wcnt.toNat + 1 ∧ m' = Memory.write m w.wcnt.toNat b ∧
      ∀ k, scanByte b w k = .ok (w', Memory.write k w.wcnt.toNat b)) := by
  rcases scanByte_cases h with ⟨hp, rfl, rfl⟩ | ⟨hp, rfl, rfl⟩ | ⟨hp, rfl, rfl⟩ | ⟨hp, rfl, rfl⟩ |
    ⟨hp, rfl, rfl⟩ | ⟨hp, hcnt, rfl, rfl⟩ | ⟨hp, hck, rfl, rfl⟩ | ⟨hp, hck, rfl, rfl⟩ | ⟨hp, rfl, rfl⟩
  -- the PAYLOAD row
  case inr.inr.inr.inr.inr.inl =>
    refine .inr ⟨?_, rfl, fun k => by simp [scanByte, hp, hcnt]⟩
    simp only [pbufEntries] at hcnt
    bv_omega
  -- the TYPE row, which clears WCNT
  case inr.inr.inr.inr.inl => exact .inl ⟨Nat.zero_le _, rfl, fun k => by simp [scanByte, hp]⟩
  -- the two CKSUM rows
  case inr.inr.inr.inr.inr.inr.inl => exact .inl ⟨le_rfl, rfl, fun k => by simp [scanByte, hp, hck]⟩
  case inr.inr.inr.inr.inr.inr.inr.inl =>
    exact .inl ⟨le_rfl, rfl, fun k => by simp [scanByte, hp, hck]⟩
  all_goals exact .inl ⟨le_rfl, rfl, fun k => by simp [scanByte, hp]⟩

/-! One rule for each state operation: two states that differ only in dead PBUF entries still do after it. -/

namespace SameButDeadPbuf

variable {s t : State}

theorem respond (h : SameButDeadPbuf s t) (c : RespCode) (d : Byte) :
    SameButDeadPbuf (s.respond c d) (t.respond c d) :=
  { h with responses := by simp [h.responses] }

theorem emit (h : SameButDeadPbuf s t) (b : Byte) : SameButDeadPbuf (s.emit b) (t.emit b) :=
  { h with tx := by simp [h.tx] }

theorem setBuilder (h : SameButDeadPbuf s t) (u : Builder) :
    SameButDeadPbuf (s.setBuilder u) (t.setBuilder u) :=
  { h with builder := rfl }

theorem setObs (h : SameButDeadPbuf s t) (o : Observables) :
    SameButDeadPbuf (s.setObs o) (t.setObs o) :=
  { h with obs := rfl }

theorem setPort (h : SameButDeadPbuf s t) (p : List HostEvent) :
    SameButDeadPbuf (s.setPort p) (t.setPort p) :=
  { h with port := rfl }

theorem setResetIn (h : SameButDeadPbuf s t) (asserted : Bool) :
    SameButDeadPbuf (s.setResetIn asserted) (t.setResetIn asserted) :=
  { h with resetIn := rfl }

/-- A new working state must count no payload byte in which the two differ. -/
theorem setWorking (h : SameButDeadPbuf s t) {w : Working}
    (hw : Memory.SameBelow w.wcnt.toNat s.pbuf t.pbuf) :
    SameButDeadPbuf (s.setWorking w) (t.setWorking w) :=
  { h with working := rfl, live := fun i hi => hi.elim (hw i) fun hheld => h.live i (.inr hheld) }

/-- New result registers must hold no frame with a payload byte in which the two differ. -/
theorem setResult (h : SameButDeadPbuf s t) {r : ResultRegs}
    (hr : r.res.isFrame = true → Memory.SameBelow r.dsize.toNat s.pbuf t.pbuf) :
    SameButDeadPbuf (s.setResult r) (t.setResult r) :=
  { h with
    result := rfl
    live := fun i hi => hi.elim (fun hfed => h.live i (.inl hfed)) fun hheld => hr hheld.1 i hheld.2 }

/-- DEND commits the sizeField received as DSIZE. -/
theorem setCommitResult (h : SameButDeadPbuf s t) {p : RxCkFrom} {w : Working} {m : Memory}
    {res : ResCode} {mc : MCause}
    (hframe : res.isFrame = true → Memory.SameBelow w.wsize.toNat s.pbuf t.pbuf) :
    SameButDeadPbuf (s.setResult (commitResult p w m res mc))
      (t.setResult (commitResult p w m res mc)) := by
  refine h.setResult fun hres => ?_
  rw [commitResult_res] at hres
  rw [commitResult_dsize hres]
  exact hframe hres

theorem clearWorking (h : SameButDeadPbuf s t) : SameButDeadPbuf s.clearWorking t.clearWorking :=
  h.setWorking fun _ hi => absurd hi (Nat.not_lt_zero _)

theorem clearResults (h : SameButDeadPbuf s t) : SameButDeadPbuf s.clearResults t.clearResults :=
  (h.setResult (r := .reset) nofun).setObs _

/-- A scrambled PBUF is no difference where neither a buffer nor a held frame makes an entry live. -/
theorem scramblePbuf (h : SameButDeadPbuf s t) (hdead : ∀ i, ¬ LiveEntry s i) :
    SameButDeadPbuf s.scramblePbuf t.scramblePbuf :=
  { h with live := fun i hi => absurd hi (hdead i) }

theorem resetCore (h : SameButDeadPbuf s t) : SameButDeadPbuf s.resetCore t.resetCore := by
  refine ((h.setBuilder .reset).clearWorking.clearResults).scramblePbuf ?_
  rintro i (hfed | ⟨hframe, -⟩)
  · exact absurd hfed (Nat.not_lt_zero i)
  · cases hframe

theorem setResetLevel (h : SameButDeadPbuf s t) (asserted : Bool) :
    SameButDeadPbuf (s.setResetLevel asserted) (t.setResetLevel asserted) := by
  cases asserted with
  | false => exact h.setResetIn false
  | true => exact h.resetCore.setResetIn true

theorem ite {s' t' : State} (c : Prop) [Decidable c] (h' : SameButDeadPbuf s' t')
    (h : SameButDeadPbuf s t) : SameButDeadPbuf (if c then s' else s) (if c then t' else t) := by
  split
  · exact h'
  · exact h

theorem softReset (h : SameButDeadPbuf s t) (m : BitVec 3) :
    SameButDeadPbuf (softReset m s) (softReset m t) := by
  have hbuilder := ite (m.getLsbD 0) (h.setBuilder .reset) h
  have hworking := ite (m.getLsbD 1) hbuilder.clearWorking hbuilder
  exact ite (m.getLsbD 2) hworking.clearResults hworking

/-! What a command reads of two such states is the same. -/

theorem sameBelow_wcnt (h : SameButDeadPbuf s t) :
    Memory.SameBelow s.working.wcnt.toNat s.pbuf t.pbuf :=
  fun i hi => h.live i (.inl hi)

theorem regValue_eq (h : SameButDeadPbuf s t) (r : RegName) : regValue s r = regValue t r := by
  cases r <;> simp [regValue, statusReg, h.builder, h.working, h.result, h.obs]

theorem payloadAt_eq (h : SameButDeadPbuf s t) (i : Byte) : payloadAt i s = payloadAt i t := by
  unfold payloadAt
  rw [← h.result]
  split
  · next hheld => rw [h.live i.toNat (.inr hheld)]
  · rfl

end SameButDeadPbuf

/-! ### Each command on two states that differ only in dead PBUF entries -/

/-- If the first outcome is a next state, so is the second, and the two states differ only in dead PBUF
entries. -/
def NextAlike (o o' : Host.Outcome State Fault Refusal) : Prop :=
  ∀ s', o = .next s' → ∃ t', o' = .next t' ∧ SameButDeadPbuf s' t'

section

variable {s t : State} (h : SameButDeadPbuf s t)
include h

theorem SameButDeadPbuf.nextAlike : NextAlike (.next s) (.next t) := by
  rintro _ ⟨⟩
  exact ⟨t, rfl, h⟩

theorem respondData_nextAlike (d : Byte) : NextAlike (respondData d s) (respondData d t) :=
  (h.respond .ok d).nextAlike

theorem finish_nextAlike : NextAlike (finish s) (finish t) := respondData_nextAlike h 0x00

theorem raiseError_nextAlike (c : RespCode) : NextAlike (raiseError c s) (raiseError c t) :=
  (h.respond c 0x00).nextAlike

theorem execBstart_nextAlike (msg : Byte) : NextAlike (execBstart msg s) (execBstart msg t) := by
  unfold execBstart
  rw [← h.builder]
  split
  · exact raiseError_nextAlike h .seq
  · exact finish_nextAlike ((((h.emit 0xEF).emit 0xDD).emit msg).setBuilder _)

theorem execBbyte_nextAlike (b : Byte) : NextAlike (execBbyte b s) (execBbyte b t) := by
  unfold execBbyte
  rw [← h.builder]
  split
  · exact finish_nextAlike ((h.emit b).setBuilder _)
  · exact raiseError_nextAlike h .seq

theorem execBend_nextAlike : NextAlike (execBend s) (execBend t) := by
  unfold execBend
  rw [← h.builder]
  split
  · exact finish_nextAlike (((h.emit _).emit _).setBuilder _)
  · exact raiseError_nextAlike h .seq

theorem execRdreg_nextAlike (a : Byte) : NextAlike (execRdreg a s) (execRdreg a t) := by
  unfold execRdreg
  split
  · next r _ => exact h.regValue_eq r ▸ respondData_nextAlike h _
  · exact raiseError_nextAlike h .badreg

theorem execRdpay_nextAlike (i : Byte) : NextAlike (execRdpay i s) (execRdpay i t) := by
  unfold execRdpay
  rw [← h.working, ← h.payloadAt_eq i]
  split
  · exact raiseError_nextAlike h .busy
  · split
    · next b _ => exact respondData_nextAlike h b
    · exact raiseError_nextAlike h .range

/-- The byte fed is stored at the same index of both payload RAMs, so it is the same where it is live. -/
theorem execDbyte_nextAlike (hs : Memory.wf s.pbuf) (ht : Memory.wf t.pbuf) (b : Byte) :
    NextAlike (execDbyte b s) (execDbyte b t) := by
  intro s' hnext
  obtain ⟨w, m, hscan, rfl⟩ := execDbyte_next.1 hnext
  rcases scanByte_pbuf_blind hscan with ⟨hcnt, rfl, hblind⟩ | ⟨hcnt, rfl, hblind⟩
  · refine ⟨_, execDbyte_next.2 ⟨w, t.pbuf, h.working ▸ hblind t.pbuf, rfl⟩, ?_⟩
    have hw : Memory.SameBelow w.wcnt.toNat s.pbuf t.pbuf :=
      fun i hi => h.sameBelow_wcnt i (hi.trans_le hcnt)
    exact (h.setWorking hw).respond .ok 0x00
  · refine ⟨_, execDbyte_next.2 ⟨w, Memory.write t.pbuf s.working.wcnt.toNat b,
      h.working ▸ hblind t.pbuf, rfl⟩, ?_⟩
    refine { h with working := rfl, responses := congrArg (· ++ _) h.responses, live := fun i hi => ?_ }
    refine Memory.read_write_congr hs ht fun hne => h.live i ?_
    refine hi.imp_left fun hfed => ?_
    have hlt : i < s.working.wcnt.toNat + 1 := hcnt ▸ hfed
    exact Nat.lt_of_le_of_ne (Nat.le_of_lt_succ hlt) hne

/-- DEND reads PBUF only for a frame result, and then the buffer has written every entry below WSIZE. -/
theorem execDend_nextAlike (hw : s.working.Inv) : NextAlike (execDend s) (execDend t) := by
  have hframe (hres : (endOutcome s.working).1.isFrame = true) :
      Memory.SameBelow s.working.wsize.toNat s.pbuf t.pbuf :=
    hw.wcnt_of_isFrame hres ▸ h.sameBelow_wcnt
  have hweight (hres : (endOutcome s.working).1 = .weight) : Memory.SameBelow 6 s.pbuf t.pbuf :=
    fun i hi => hframe (by rw [hres]; rfl) i
      (hi.trans_le (BitVec.le_def.1 (wsize_of_endOutcome_weight hres)))
  have hresult : commitResult t.rxCkFrom t.working t.pbuf (endOutcome t.working).1 (endOutcome t.working).2 =
      commitResult s.rxCkFrom s.working s.pbuf (endOutcome s.working).1 (endOutcome s.working).2 := by
    rw [← h.working, ← h.rxCkFrom, commitResult_congr hframe]
  have hobs : commitObservables (endOutcome t.working).1 t.working t.pbuf t.obs =
      commitObservables (endOutcome s.working).1 s.working s.pbuf s.obs := by
    rw [← h.working, ← h.obs, commitObservables_congr hweight]
  rw [execDend_eq, execDend_eq, hresult, hobs]
  exact (((h.setCommitResult hframe).setObs _).clearWorking.respond .ok 0x00).nextAlike

theorem exec_nextAlike (hs : Memory.wf s.pbuf) (ht : Memory.wf t.pbuf) (hw : s.working.Inv) (i : Instr) :
    NextAlike (exec i s) (exec i t) := by
  cases i with
  | nop => exact finish_nextAlike h
  | srst m => exact finish_nextAlike (h.softReset m)
  | bstart msg => exact execBstart_nextAlike h msg
  | bbyte b => exact execBbyte_nextAlike h b
  | bend => exact execBend_nextAlike h
  | dbyte b => exact execDbyte_nextAlike h hs ht b
  | dend => exact execDend_nextAlike h hw
  | rdreg a => exact execRdreg_nextAlike h a
  | rdpay k => exact execRdpay_nextAlike h k

end

/-- Settles O52: a step runs a command, turns an ILLEGAL word away or takes a reset level, and each of these
keeps the two states alike. -/
theorem deadPayloadEntriesAreNotObservable : Obligations.DeadPayloadEntriesAreNotObservable := by
  unfold Obligations.DeadPayloadEntriesAreNotObservable
  intro s t s' hs ht h hstep
  rcases step_cases hstep with
    ⟨w, rest, i, hp, hr, hdec, hexec⟩ | ⟨w, rest, why, hp, hr, hdec, rfl⟩ | ⟨a, rest, hp, rfl⟩
  · obtain ⟨t', ht', halike⟩ :=
      exec_nextAlike (h.setPort rest) hs.memory ht.memory hs.working i s' hexec
    refine ⟨t', ?_, halike⟩
    rw [step_command (h.port ▸ hp) (h.resetIn ▸ hr), runWord, hdec]
    exact ht'
  · refine ⟨_, ?_, (h.setPort rest).respond .illegal 0x00⟩
    rw [step_command (h.port ▸ hp) (h.resetIn ▸ hr), runWord, hdec]
    rfl
  · exact ⟨_, step_reset (h.port ▸ hp), (h.setPort rest).setResetLevel a⟩

end Sys2Proof.Machine

/-! ## The encoding: the opcode map, reserved ARG bits, ILLEGAL words (30_encoding.md) -/

namespace Sys2Proof

/-! ### The opcode map, read as OP and the reserved ARG bits of each row -/

/-- The ARG bits that a row's mask covers: its reserved bits, which must be 0 (R61). -/
def OpRow.reserved (r : OpRow) : Byte := argField r.mask

/-- "No two rows match the same word" (R60), because no two rows have the same OP. -/
theorem opRow_eq_of_op_eq : ∀ r ∈ opRows, ∀ q ∈ opRows, q.op = r.op → q = r := by decide

/-- Every row matches on the whole of OP and asks for 0 in its reserved ARG bits (R60, R61). -/
theorem mask_pattern_of_mem_opRows :
    ∀ r ∈ opRows, r.mask = cmd16 0xFF#8 r.reserved ∧ r.pattern = cmd16 r.op 0x00 := by decide

/-- Masks act on OP and ARG apart. -/
theorem cmd16_and_cmd16 (op arg opMask argMask : Byte) :
    cmd16 op arg &&& cmd16 opMask argMask = cmd16 (op &&& opMask) (arg &&& argMask) := by
  refine BitVec.eq_of_getLsbD_eq fun i _ => ?_
  simp only [cmd16, BitVec.getLsbD_and, getLsbD_bytes]
  split
  · rfl
  · rfl

theorem cmd16_inj {op arg op' arg' : Byte} : cmd16 op arg = cmd16 op' arg' ↔ op = op' ∧ arg = arg' := by
  refine ⟨fun h => ⟨?_, ?_⟩, fun ⟨hop, harg⟩ => by rw [hop, harg]⟩
  · simpa using congrArg opField h
  · simpa using congrArg argField h

/-- A mask of all eight bits keeps the byte. -/
theorem and_FF (b : Byte) : b &&& 0xFF#8 = b := BitVec.and_allOnes

/-- A word is the command of a row when its OP is the row's and the row's reserved ARG bits are 0. -/
theorem isCommandOf_cmd16 {r : OpRow} (hr : r ∈ opRows) (op arg : Byte) :
    r.isCommandOf (cmd16 op arg) = true ↔ op = r.op ∧ arg &&& r.reserved = 0 := by
  obtain ⟨hmask, hpattern⟩ := mask_pattern_of_mem_opRows r hr
  rw [OpRow.isCommandOf, beq_iff_eq, hmask, hpattern, cmd16_and_cmd16, cmd16_inj, and_FF]

/-- The row that a word matches is the only one. -/
theorem filter_isCommandOf_eq_singleton {r : OpRow} (hr : r ∈ opRows) {arg : Byte}
    (harg : arg &&& r.reserved = 0) : opRows.filter (·.isCommandOf (cmd16 r.op arg)) = [r] := by
  have hself : ∀ r ∈ opRows, opRows.filter (· == r) = [r] := by decide
  rw [← hself r hr]
  refine List.filter_congr fun q hq => Bool.eq_iff_iff.2 ?_
  rw [isCommandOf_cmd16 hq, beq_iff_eq]
  constructor
  · rintro ⟨hop, -⟩
    exact opRow_eq_of_op_eq r hr q hq hop.symm
  · rintro rfl
    exact ⟨rfl, harg⟩

/-! ### The well-formedness check and the decoder, by the row of the word's OP -/

@[simp] theorem opcodeDefined_cmd16 (op arg : Byte) :
    opcodeDefined (cmd16 op arg) = true ↔ ∃ r ∈ opRows, r.op = op := by
  have hop : (cmd16 op arg).extractLsb' 8 8 = op := opField_cmd16 op arg
  simp only [opcodeDefined, hop, List.any_eq_true, beq_iff_eq]

/-- ARG[7:3] is 0 when the bits under 0xF8 are (R61, for SRST). -/
theorem and_F8_eq_zero_iff : ∀ arg : Byte, arg &&& 0xF8#8 = 0#8 ↔ arg.extractLsb' 3 5 = 0#5 := by
  decide

/-- The reserved ARG bits of R61 are those that the row's mask covers. -/
theorem reservedClear_cmd16 {r : OpRow} (hr : r ∈ opRows) (arg : Byte) :
    reservedClear (cmd16 r.op arg) = true ↔ arg &&& r.reserved = 0 := by
  have hop : (cmd16 r.op arg).extractLsb' 8 8 = r.op := opField_cmd16 r.op arg
  have harg : (cmd16 r.op arg).extractLsb' 0 8 = arg := argField_cmd16 r.op arg
  simp only [reservedClear, hop, harg]
  simp only [opRows, List.mem_cons, List.not_mem_nil, or_false] at hr
  rcases hr with rfl | rfl | rfl | rfl | rfl | rfl | rfl | rfl | rfl
  all_goals simp [OpRow.reserved, argField, and_FF, and_F8_eq_zero_iff]

theorem wordWellFormed_cmd16 {r : OpRow} (hr : r ∈ opRows) (arg : Byte) :
    wordWellFormed (cmd16 r.op arg) = true ↔ arg &&& r.reserved = 0 := by
  rw [wordWellFormed, Bool.and_eq_true, reservedClear_cmd16 hr, opcodeDefined_cmd16]
  exact and_iff_right ⟨r, hr, rfl⟩

/-- A row without reserved ARG bits takes every ARG (R61). -/
theorem checkReserved_none (op arg : Byte) (i : Instr) : checkReserved 0x00 op arg i = .cmd i :=
  if_pos BitVec.and_zero

/-- A set reserved ARG bit makes the word ILLEGAL (R61). -/
theorem checkReserved_eq_illegal {reserved op arg : Byte} (h : arg &&& reserved ≠ 0) (i : Instr) :
    checkReserved reserved op arg i = .illegal (.reservedArgBits op arg) :=
  if_neg h

/-- A row's OP decodes to the row's command, behind the check of the row's reserved ARG bits (R60, R61). -/
theorem decodeCmd_row {r : OpRow} (hr : r ∈ opRows) (arg : Byte) :
    ∃ i : Instr, i.mnemonic = r.mnemonic ∧
      decodeCmd (cmd16 r.op arg) = checkReserved r.reserved r.op arg i := by
  simp only [decodeCmd, opField_cmd16, argField_cmd16]
  simp only [opRows, List.mem_cons, List.not_mem_nil, or_false] at hr
  rcases hr with rfl | rfl | rfl | rfl | rfl | rfl | rfl | rfl | rfl
  · exact ⟨.nop, rfl, rfl⟩
  · exact ⟨.srst (arg.extractLsb' 0 3), rfl, rfl⟩
  · exact ⟨.bstart arg, rfl, (checkReserved_none _ arg _).symm⟩
  · exact ⟨.bbyte arg, rfl, (checkReserved_none _ arg _).symm⟩
  · exact ⟨.bend, rfl, rfl⟩
  · exact ⟨.dbyte arg, rfl, (checkReserved_none _ arg _).symm⟩
  · exact ⟨.dend, rfl, rfl⟩
  · exact ⟨.rdreg arg, rfl, (checkReserved_none _ arg _).symm⟩
  · exact ⟨.rdpay arg, rfl, (checkReserved_none _ arg _).symm⟩

/-- A word of a row whose ARG meets the row's mask decodes to the row's command. -/
theorem decodeCmd_row_clear {r : OpRow} (hr : r ∈ opRows) {arg : Byte} (harg : arg &&& r.reserved = 0) :
    ∃ i : Instr, i.mnemonic = r.mnemonic ∧ decodeCmd (cmd16 r.op arg) = .cmd i := by
  obtain ⟨i, hname, hdec⟩ := decodeCmd_row hr arg
  exact ⟨i, hname, hdec.trans (checkReserved_eq_cmd.2 ⟨harg, rfl⟩)⟩

/-- A word of a row with a reserved ARG bit set is ILLEGAL (R61). -/
theorem decodeCmd_row_reserved {r : OpRow} (hr : r ∈ opRows) {arg : Byte} (harg : arg &&& r.reserved ≠ 0) :
    decodeCmd (cmd16 r.op arg) = .illegal (.reservedArgBits r.op arg) := by
  obtain ⟨i, -, hdec⟩ := decodeCmd_row hr arg
  exact hdec.trans (checkReserved_eq_illegal harg i)

/-- An OP of no row is undefined (R62). -/
theorem decodeCmd_undefined {op : Byte} (hop : ∀ r ∈ opRows, r.op ≠ op) (arg : Byte) :
    decodeCmd (cmd16 op arg) = .illegal (.undefinedOpcode op) := by
  simp only [opRows, List.forall_mem_cons, ne_comm (b := op)] at hop
  simp only [decodeCmd, opField_cmd16, hop, if_false]

/-! ### The statements -/

/-- Settles O2: by the row of the word's OP, and by the ARG bits that this row reserves. -/
theorem wordMatchesOneRowOrIsIllegal : Obligations.WordMatchesOneRowOrIsIllegal := by
  unfold Obligations.WordMatchesOneRowOrIsIllegal
  intro w
  obtain ⟨op, arg, rfl⟩ : ∃ op arg, w = cmd16 op arg := ⟨_, _, (cmd16_fields w).symm⟩
  by_cases hop : ∃ r ∈ opRows, r.op = op
  · obtain ⟨r, hr, rfl⟩ := hop
    by_cases harg : arg &&& r.reserved = 0
    · obtain ⟨i, hname, hdec⟩ := decodeCmd_row_clear hr harg
      exact .inl ⟨r, i, filter_isCommandOf_eq_singleton hr harg, (wordWellFormed_cmd16 hr arg).2 harg,
        hdec, hname⟩
    · refine .inr ⟨List.filter_eq_nil_iff.2 fun q hq hmatch => ?_,
        Bool.eq_false_iff.2 fun hwf => harg ((wordWellFormed_cmd16 hr arg).1 hwf),
        _, decodeCmd_row_reserved hr harg⟩
      obtain ⟨hqop, hqarg⟩ := (isCommandOf_cmd16 hq r.op arg).1 hmatch
      exact harg (opRow_eq_of_op_eq r hr q hq hqop.symm ▸ hqarg)
  · have hundef : ∀ r ∈ opRows, r.op ≠ op := fun r hr h => hop ⟨r, hr, h⟩
    refine .inr ⟨List.filter_eq_nil_iff.2 fun q hq hmatch => ?_, ?_, _, decodeCmd_undefined hundef arg⟩
    · exact hundef q hq ((isCommandOf_cmd16 hq op arg).1 hmatch).1.symm
    · rw [wordWellFormed, Bool.eq_false_iff.2 (mt (opcodeDefined_cmd16 op arg).1 hop), Bool.false_and]

/-- Settles O3: row by row, with the ARG bits that each row reserves. -/
theorem reservedArgBitsAreIllegal : Obligations.ReservedArgBitsAreIllegal := by
  unfold Obligations.ReservedArgBitsAreIllegal
  intro arg
  constructor
  · intro h
    have harg : arg &&& 0xFF ≠ 0 := (and_FF arg).symm ▸ h
    exact ⟨decodeCmd_row_reserved (r := ⟨"NOP", 0x00, 0x0000, 0xFFFF⟩) (by decide) harg,
      decodeCmd_row_reserved (r := ⟨"BEND", 0x12, 0x1200, 0xFFFF⟩) (by decide) harg,
      decodeCmd_row_reserved (r := ⟨"DEND", 0x21, 0x2100, 0xFFFF⟩) (by decide) harg⟩
  · intro h
    exact decodeCmd_row_reserved (r := ⟨"SRST", 0x01, 0x0100, 0xFFF8⟩) (by decide)
      (mt (and_F8_eq_zero_iff arg).1 h)

end Sys2Proof

namespace Sys2Proof.Machine

/-- The OPs that R62 lists as undefined stand in no row of the map. -/
theorem opRow_op_ne_of_undefined {op : Byte}
    (h : (0x02 ≤ op ∧ op ≤ 0x0F) ∨ (0x13 ≤ op ∧ op ≤ 0x1F) ∨ (0x22 ≤ op ∧ op ≤ 0x2F) ∨ 0x32 ≤ op) :
    ∀ r ∈ opRows, r.op ≠ op := by
  have hrows : ∀ r ∈ opRows, ¬ ((0x02 ≤ r.op ∧ r.op ≤ 0x0F) ∨ (0x13 ≤ r.op ∧ r.op ≤ 0x1F) ∨
      (0x22 ≤ r.op ∧ r.op ≤ 0x2F) ∨ 0x32 ≤ r.op) := by decide
  rintro r hr rfl
  exact hrows r hr h

/-- A step that is presented an ILLEGAL word takes it off the port and responds 0x0100 (R62). -/
theorem step_illegal {s : State} {w : Word} {why : IllegalReason} {rest : List HostEvent}
    (hp : s.port = .command w :: rest) (hr : s.resetIn = false) (hdec : decodeCmd w = .illegal why) :
    step s = .next { s with port := rest, responses := s.responses ++ [0x0100] } := by
  rw [step_command hp hr, runWord, hdec]
  exact illegalWord_next.2 rfl

/-- Settles O4: an OP of R62's ranges is in no row, and the step of an ILLEGAL word. -/
theorem undefinedOpcodesAreIllegalWithoutEffect : Obligations.UndefinedOpcodesAreIllegalWithoutEffect := by
  unfold Obligations.UndefinedOpcodesAreIllegalWithoutEffect
  exact ⟨fun op arg h => decodeCmd_undefined (opRow_op_ne_of_undefined h) arg,
    fun s w why rest hp hr hdec => step_illegal hp hr hdec⟩

end Sys2Proof.Machine

/-! ## The builder: BSTART, BBYTE, BEND and the frame of BUILD (40_builder.md) -/

namespace Sys2Proof.Machine

/-! ### The builder's words -/

/-- Every ARG of OP 0x10 is a BSTART of that message type (R72). -/
theorem decodeCmd_bstart (t : Byte) : decodeCmd (0x10#8 ++ t) = .cmd (.bstart t) := by
  simp [decodeCmd, opField, argField]

/-- Every ARG of OP 0x11 is a BBYTE of that byte (R73). -/
theorem decodeCmd_bbyte (b : Byte) : decodeCmd (0x11#8 ++ b) = .cmd (.bbyte b) := by
  simp [decodeCmd, opField, argField]

/-- All ARG bits of OP 0x12 are reserved (R61, R74). -/
theorem decodeCmd_bend (arg : Byte) : decodeCmd (0x12#8 ++ arg) =
    if arg = 0x00 then .cmd .bend else .illegal (.reservedArgBits 0x12 arg) := by
  split
  case isTrue harg => rw [harg]; decide
  case isFalse harg =>
    exact decodeCmd_row_reserved (r := ⟨"BEND", 0x12, 0x1200, 0xFFFF⟩) (by decide)
      ((and_FF arg).symm ▸ harg)

/-! ### Each builder command with a frame open and with none -/

section Commands

variable {s : State}

/-- BSTART with no frame open (R72). -/
theorem exec_bstart_idle (h : s.builder.bbusy = false) (t : Byte) : exec (.bstart t) s = .next { s with
    tx := s.tx ++ [0xEF, 0xDD, t]
    builder := Builder.opened t
    responses := s.responses ++ [0x0000] } := by
  have hexec : exec (.bstart t) s = execBstart t s := rfl
  rw [hexec, execBstart, h]
  exact finish_next.2 (by simp [State.emit, State.setBuilder, responseWord, RespCode.toByte])

/-- BSTART with a frame open is out of sequence (R72). -/
theorem exec_bstart_busy (h : s.builder.bbusy = true) (t : Byte) :
    exec (.bstart t) s = .next { s with responses := s.responses ++ [0x0200] } := by
  have hexec : exec (.bstart t) s = execBstart t s := rfl
  rw [hexec, execBstart, h]
  exact raiseError_next.2 rfl

/-- BBYTE with a frame open (R73). -/
theorem exec_bbyte_busy (h : s.builder.bbusy = true) (b : Byte) : exec (.bbyte b) s = .next { s with
    tx := s.tx ++ [b]
    builder := s.builder.accept b
    responses := s.responses ++ [0x0000] } := by
  have hexec : exec (.bbyte b) s = execBbyte b s := rfl
  rw [hexec, execBbyte, h]
  exact finish_next.2 rfl

/-- BBYTE with no frame open is out of sequence (R73). -/
theorem exec_bbyte_idle (h : s.builder.bbusy = false) (b : Byte) :
    exec (.bbyte b) s = .next { s with responses := s.responses ++ [0x0200] } := by
  have hexec : exec (.bbyte b) s = execBbyte b s := rfl
  rw [hexec, execBbyte, h]
  exact raiseError_next.2 rfl

/-- BEND with a frame open (R74). -/
theorem exec_bend_busy (h : s.builder.bbusy = true) : exec .bend s = .next { s with
    tx := s.tx ++ [s.builder.beven, s.builder.bodd]
    builder := s.builder.closed
    responses := s.responses ++ [0x0000] } := by
  have hexec : exec .bend s = execBend s := rfl
  rw [hexec, execBend, h]
  exact finish_next.2 (by simp [State.emit, State.setBuilder, responseWord, RespCode.toByte])

/-- BEND with no frame open is out of sequence (R74). -/
theorem exec_bend_idle (h : s.builder.bbusy = false) :
    exec .bend s = .next { s with responses := s.responses ++ [0x0200] } := by
  have hexec : exec .bend s = execBend s := rfl
  rw [hexec, execBend, h]
  exact raiseError_next.2 rfl

end Commands

/-! ### The accumulators -/

/-- Adding bytes is adding modulo 256 (R73). -/
theorem byte_add_eq_ofNat (a b : Byte) : a + b = BitVec.ofNat 8 ((a.toNat + b.toNat) % 256) := by
  bv_omega

/-- At an even index the byte is added to BEVEN (R73). -/
theorem Builder.accept_even {u : Builder} (h : u.bpar = false) (b : Byte) :
    u.accept b = { u with beven := u.beven + b, bpar := true } := by
  simp [Builder.accept, h]

/-- At an odd index the byte is added to BODD (R73). -/
theorem Builder.accept_odd {u : Builder} (h : u.bpar = true) (b : Byte) :
    u.accept b = { u with bodd := u.bodd + b, bpar := false } := by
  simp [Builder.accept, h]

/-- A byte at the end counts to the sum that its index, the length before it, selects (R76). -/
theorem sums_append_singleton (p : List Byte) (b : Byte) :
    evenSum (p ++ [b]) = evenSum p + (if p.length % 2 = 0 then b.toNat else 0) ∧
      oddSum (p ++ [b]) = oddSum p + (if p.length % 2 = 0 then 0 else b.toNat) := by
  induction p with
  | nil => simp [evenSum, oddSum]
  | cons c p ih =>
    obtain ⟨heven, hodd⟩ := ih
    simp only [List.cons_append, sums_cons, heven, hodd, List.length_cons]
    split_ifs <;> omega

/-- An 8-bit accumulator may wrap at each byte: only the low byte of the exact sum is kept (R75). -/
theorem lowByte_add (sum : Nat) (b : Byte) : lowByte (sum + b.toNat) = lowByte sum + b := by
  simp only [lowByte_eq]
  bv_omega

/-- The builder of R75 between BSTART `t` and BEND, after the payload bytes `p`. -/
def Builder.accumulated (t : Byte) (p : List Byte) : Builder :=
  { bbusy := true, bpar := decide (p.length % 2 = 1), beven := lowByte (evenSum p),
    bodd := lowByte (oddSum p), bmsg := t }

theorem Builder.opened_eq_accumulated (t : Byte) : Builder.opened t = Builder.accumulated t [] := rfl

/-- One more BBYTE keeps the accumulator invariant of R75. -/
theorem Builder.accumulated_accept (t : Byte) (p : List Byte) (b : Byte) :
    (Builder.accumulated t p).accept b = Builder.accumulated t (p ++ [b]) := by
  obtain ⟨heven, hodd⟩ := sums_append_singleton p b
  rcases Nat.mod_two_eq_zero_or_one p.length with hpar | hpar
  · have hsucc : (p.length + 1) % 2 = 1 := by omega
    rw [Builder.accept_even (by simp [Builder.accumulated, hpar])]
    simp [Builder.accumulated, heven, hodd, hpar, hsucc, lowByte_add]
  · have hsucc : (p.length + 1) % 2 = 0 := by omega
    rw [Builder.accept_odd (by simp [Builder.accumulated, hpar])]
    simp [Builder.accumulated, heven, hodd, hpar, hsucc, lowByte_add]

/-! ### Sequences of builder commands -/

/-- A sequence with one more command: the last one runs from where the others ended. -/
theorem execAll_append_singleton {is : List Instr} {i : Instr} {s t u : State}
    (his : execAll is s = .next t) (hi : exec i t = .next u) : execAll (is ++ [i]) s = .next u := by
  rw [execAll_append his]
  simp [execAll, hi]

/-- BSTART and the BBYTEs of a payload: the header and the payload are emitted, every response is OK, and
the builder meets the invariant of R75. -/
theorem execAll_bstart_bbytes {s : State} (h : s.builder.bbusy = false) (t : Byte) (p : List Byte) :
    execAll (.bstart t :: p.map .bbyte) s = .next { s with
      tx := s.tx ++ ([0xEF, 0xDD, t] ++ p)
      builder := Builder.accumulated t p
      responses := s.responses ++ List.replicate (p.length + 1) 0x0000 } := by
  induction p using List.reverseRecOn with
  | nil => simp [execAll, exec_bstart_idle h, Builder.opened_eq_accumulated]
  | append_singleton p b ih =>
    rw [List.map_append, ← List.cons_append]
    refine (execAll_append_singleton ih (exec_bbyte_busy rfl b)).trans ?_
    simp [Builder.accumulated_accept, List.replicate_succ']

/-! ### The statements -/

/-- Settles O16: the commands up to BEND leave the accumulators at the sums of the payload (R75), which are
the two bytes that BEND then emits. -/
theorem buildEmitsReferenceFrame : Obligations.BuildEmitsReferenceFrame := by
  unfold Obligations.BuildEmitsReferenceFrame
  refine fun t p s h => ⟨?_, by simp [buildFrame]⟩
  rw [buildCommands, ← List.cons_append]
  refine (execAll_append_singleton (execAll_bstart_bbytes h t p) (exec_bend_busy rfl)).trans ?_
  simp [buildFrame, Builder.accumulated, Builder.closed, List.replicate_succ']

/-- Settles O12: the word, then BSTART with no frame open and with one open. -/
theorem bstartOpensFrame : Obligations.BstartOpensFrame := by
  unfold Obligations.BstartOpensFrame
  exact fun t s => ⟨decodeCmd_bstart t, fun h => exec_bstart_idle h t, fun h => exec_bstart_busy h t⟩

/-- Settles O13: the word, then BBYTE by BBUSY and BPAR. -/
theorem bbyteAppendsPayloadByte : Obligations.BbyteAppendsPayloadByte := by
  unfold Obligations.BbyteAppendsPayloadByte
  intro b s
  refine ⟨decodeCmd_bbyte b, fun hbusy heven => ?_, fun hbusy hodd => ?_, fun h => exec_bbyte_idle h b⟩
  · rw [exec_bbyte_busy hbusy, Builder.accept_even heven, byte_add_eq_ofNat]
  · rw [exec_bbyte_busy hbusy, Builder.accept_odd hodd, byte_add_eq_ofNat]

/-- Settles O14: the word, then BEND with a frame open and with none. -/
theorem bendEmitsChecksum : Obligations.BendEmitsChecksum := by
  unfold Obligations.BendEmitsChecksum
  exact ⟨decodeCmd_bend, fun s => ⟨fun h => exec_bend_busy h, fun h => exec_bend_idle h⟩⟩

end Sys2Proof.Machine

/-! ## The decoder: DBYTE, DEND and the DECODE of a buffer (41_decoder.md) -/

namespace Sys2Proof.Machine

/-! ### The rows of the scanner's table (R83) -/

section ScannerRows

variable {w : Working} (b : Byte) (m : Memory)

theorem scanByte_hunt (h : w.phase = .hunt) :
    scanByte b w m = .ok ({ w with phase := if b = 0xEF then .sync1 else .hunt }, m) := by
  simp [scanByte, h]

theorem scanByte_sync1 (h : w.phase = .sync1) : scanByte b w m =
    .ok ({ w with phase := if b = 0xDD then .topic else if b = 0xEF then .sync1 else .hunt }, m) := by
  simp [scanByte, h]

theorem scanByte_topic (h : w.phase = .topic) :
    scanByte b w m = .ok ({ w with wtopic := b, phase := .size }, m) := by
  simp [scanByte, h]

theorem scanByte_size (h : w.phase = .size) :
    scanByte b w m = .ok ({ w with wsize := b, phase := .type }, m) := by
  simp [scanByte, h]

theorem scanByte_type (h : w.phase = .type) : scanByte b w m =
    .ok ({ w with wtype := b, wcnt := 0, phase := if w.wsize = 0 then .cksum else .payload }, m) := by
  have hpos : 0 < w.wsize ↔ ¬ w.wsize = 0 := by bv_omega
  simp only [scanByte, h, hpos, ite_not]

/-- Below WSIZE the write index never leaves PBUF, and the 8-bit WCNT does not wrap. -/
theorem scanByte_payload (h : w.phase = .payload) (hcnt : w.wcnt < w.wsize) : scanByte b w m =
    .ok ({ w with
        wcnt := w.wcnt + 1
        phase := if w.wcnt.toNat + 1 = w.wsize.toNat then .cksum else .payload },
      Memory.write m w.wcnt.toNat b) := by
  have hindex : w.wcnt.toNat < pbufEntries := by unfold pbufEntries; bv_omega
  have hlast : w.wcnt + 1 = w.wsize ↔ w.wcnt.toNat + 1 = w.wsize.toNat := by bv_omega
  simp only [scanByte, h, hindex, hlast, if_true]

theorem scanByte_cksum_first (h : w.phase = .cksum) (hck : w.ckcnt = 0) :
    scanByte b w m = .ok ({ w with wck0 := b, ckcnt := 1 }, m) := by
  simp [scanByte, h, hck]

theorem scanByte_cksum_second (h : w.phase = .cksum) (hck : w.ckcnt = 1) :
    scanByte b w m = .ok ({ w with wck1 := b, ckcnt := 2, phase := .done }, m) := by
  simp [scanByte, h, hck]

theorem scanByte_done (h : w.phase = .done) : scanByte b w m = .ok (w, m) := by
  simp [scanByte, h]

end ScannerRows

/-! ### DBYTE -/

/-- Every ARG of OP 0x20 is a DBYTE of that byte (R84). -/
theorem decodeCmd_dbyte (b : Byte) : decodeCmd (0x20#8 ++ b) = .cmd (.dbyte b) := by
  simp [decodeCmd, opField, argField]

/-- DBYTE is one scanner step with DACTIVE set, and an OK response (R84). -/
theorem exec_dbyte {b : Byte} {s : State} {w : Working} {m : Memory}
    (h : scanByte b { s.working with dactive := true } s.pbuf = .ok (w, m)) :
    exec (.dbyte b) s =
      .next { s with working := w, pbuf := m, responses := s.responses ++ [0x0000] } :=
  execDbyte_next.2 ⟨w, m, h, rfl⟩

/-- A DBYTE that completes made a scanner step. -/
theorem scanByte_of_exec_dbyte {b : Byte} {s t : State} (h : exec (.dbyte b) s = .next t) :
    scanByte b { s.working with dactive := true } s.pbuf = .ok (t.working, t.pbuf) := by
  obtain ⟨w, m, hscan, rfl⟩ := execDbyte_next.1 h
  exact hscan

/-- Settles O18: each row of the table, taken by DBYTE. -/
theorem dbyteFollowsScannerTable : Obligations.DbyteFollowsScannerTable := by
  unfold Obligations.DbyteFollowsScannerTable
  intro b s hinv
  refine ⟨decodeCmd_dbyte b,
    fun h => exec_dbyte (scanByte_hunt b _ h),
    fun h => exec_dbyte (scanByte_sync1 b _ h),
    fun h => exec_dbyte (scanByte_topic b _ h),
    fun h => exec_dbyte (scanByte_size b _ h),
    fun h => exec_dbyte (scanByte_type b _ h),
    fun h => exec_dbyte (scanByte_payload b _ h (hinv.inPayload h)),
    fun h hck => exec_dbyte (scanByte_cksum_first b _ h hck),
    fun h hck => exec_dbyte (scanByte_cksum_second b _ h hck),
    fun h => ?_, fun h => ?_,
    fun h => exec_dbyte (scanByte_done b _ h)⟩
  · have hcnt := hinv.inPayload h
    exact ⟨hcnt, by bv_omega⟩
  · have hck := (hinv.inCksum h).1
    bv_omega

/-! ### No return to HUNT (R96) -/

/-- Past the sync no row of the table leads back to HUNT or SYNC1. -/
theorem scanByte_pastSync {b : Byte} {w w' : Working} {m m' : Memory}
    (h : scanByte b w m = .ok (w', m')) (hpast : w.phase.pastSync = true) :
    w'.phase.pastSync = true := by
  rcases scanByte_cases h with ⟨hp, -, rfl⟩ | ⟨hp, -, rfl⟩ | ⟨-, -, rfl⟩ | ⟨-, -, rfl⟩ |
    ⟨-, -, rfl⟩ | ⟨-, -, -, rfl⟩ | ⟨hp, -, -, rfl⟩ | ⟨-, -, -, rfl⟩ | ⟨-, -, rfl⟩
  -- HUNT and SYNC1 are not past the sync
  · simp [hp, Phase.pastSync] at hpast
  · simp [hp, Phase.pastSync] at hpast
  -- TOPIC, SIZE
  · rfl
  · rfl
  -- TYPE, PAYLOAD
  · dsimp only; split <;> rfl
  · dsimp only; split <;> rfl
  -- CKSUM, DONE
  · exact hpast
  · rfl
  · exact hpast

/-- A sequence completes when its first command does and the others do from there. -/
theorem execAll_cons_next {i : Instr} {is : List Instr} {s t : State} :
    execAll (i :: is) s = .next t ↔ ∃ u, exec i s = .next u ∧ execAll is u = .next t := by
  cases h : exec i s <;> simp [execAll, h]

/-- Any number of DBYTEs stays past the sync. -/
theorem execAll_dbytes_pastSync (bs : List Byte) {s t : State} (hpast : s.working.phase.pastSync = true)
    (h : execAll (bs.map .dbyte) s = .next t) : t.working.phase.pastSync = true := by
  induction bs generalizing s with
  | nil =>
    cases h
    exact hpast
  | cons b bs ih =>
    obtain ⟨u, hb, hbs⟩ := execAll_cons_next.1 h
    exact ih (scanByte_pastSync (scanByte_of_exec_dbyte hb) hpast) hbs

/-- In DONE with a byte fed, DBYTE changes nothing but the responses. -/
theorem exec_dbyte_done {s : State} (hp : s.working.phase = .done) (ha : s.working.dactive = true)
    (b : Byte) : exec (.dbyte b) s = .next { s with responses := s.responses ++ [0x0000] } := by
  have hactive : { s.working with dactive := true } = s.working := by rw [← ha]
  exact exec_dbyte (hactive ▸ scanByte_done b s.pbuf hp)

/-- In DONE with a byte fed, DBYTEs change nothing but the responses. -/
theorem execAll_dbytes_done (bs : List Byte) {s : State} (hp : s.working.phase = .done)
    (ha : s.working.dactive = true) : execAll (bs.map .dbyte) s =
      .next { s with responses := s.responses ++ List.replicate bs.length 0x0000 } := by
  induction bs generalizing s with
  | nil => simp [execAll]
  | cons b bs ih =>
    have hbs := ih (s := { s with responses := s.responses ++ [0x0000] }) hp ha
    refine (execAll_cons_next.2 ⟨_, exec_dbyte_done hp ha b, hbs⟩).trans ?_
    simp [List.replicate_succ]

/-- Settles O23. -/
theorem scannerNeverRescans : Obligations.ScannerNeverRescans := by
  unfold Obligations.ScannerNeverRescans
  exact ⟨fun bs s t hpast h => execAll_dbytes_pastSync bs hpast h,
    fun bs s hp ha => execAll_dbytes_done bs hp ha⟩

/-! ### DEND -/

/-- DEND completes in every state with an OK response; this is its next state (R86). -/
theorem exec_dend (s : State) : exec .dend s = .next { s with
    result := commitResult s.rxCkFrom s.working s.pbuf (endOutcome s.working).1 (endOutcome s.working).2
    obs := commitObservables (endOutcome s.working).1 s.working s.pbuf s.obs
    working := .reset
    responses := s.responses ++ [0x0000] } :=
  execDend_eq s

section Outcome

variable {w : Working}

theorem endOutcome_of_no_sync (h : w.phase = .hunt ∨ w.phase = .sync1) :
    endOutcome w = (.noFrame, .noCause) := by
  rcases h with h | h <;> simp [endOutcome, h]

theorem endOutcome_of_short_header (h : w.phase = .topic ∨ w.phase = .size) :
    endOutcome w = (.malformed, .hdrTrunc) := by
  rcases h with h | h <;> simp [endOutcome, h]

theorem endOutcome_of_short_payload (h : w.phase = .type ∨ w.phase = .payload) :
    endOutcome w = (.malformed, .length) := by
  rcases h with h | h <;> simp [endOutcome, h]

theorem endOutcome_of_complete (h : w.phase = .cksum ∨ w.phase = .done) :
    endOutcome w = classify w.wtopic w.wtype w.wsize := by
  rcases h with h | h <;> simp [endOutcome, h]

/-- No end of a buffer leaves RES at NONE (R94). -/
theorem endOutcome_ne_noResult (w : Working) : (endOutcome w).1 ≠ .noResult := by
  rcases endOutcome_cases w with ⟨-, h⟩ | ⟨-, h⟩ | ⟨-, h⟩ | ⟨-, h⟩
  case inr.inr.inr =>
    rcases classify_cases w.wtopic w.wtype w.wsize with ⟨-, hc⟩ | ⟨-, -, -, hc⟩ | ⟨-, -, -, hc⟩ |
      ⟨-, -, hc⟩ <;> simp [h, hc]
  all_goals simp [h]

end Outcome

section Classify

variable {topic type size : Byte}

theorem classify_battery (h : topic = 0x08) : classify topic type size = (.battery, .noCause) := by
  simp [classify, h]

theorem classify_weight (htopic : topic = 0x0C) (htype : type = 0x05) (hsize : 6 ≤ size.toNat) :
    classify topic type size = (.weight, .noCause) := by
  have hsix : 6#8 ≤ size := hsize
  simp [classify, htopic, htype, hsix]

theorem classify_short (htopic : topic = 0x0C) (htype : type = 0x05) (hsize : size.toNat < 6) :
    classify topic type size = (.malformed, .short) := by
  have hsix : size < 6#8 := hsize
  simp [classify, htopic, htype, hsix]

theorem classify_unrecog (h8 : topic ≠ 0x08) (hC : ¬ (topic = 0x0C ∧ type = 0x05)) :
    classify topic type size = (.unrecog, .noCause) := by
  rw [classify, if_neg h8, if_neg hC]

end Classify

/-- Settles O24: the outcome of each phase and of each class of frame, as DEND commits it. -/
theorem dendOutcomeTable : Obligations.DendOutcomeTable := by
  unfold Obligations.DendOutcomeTable
  intro s
  refine ⟨_, exec_dend s, rfl, rfl, rfl, rfl, rfl, rfl, rfl, rfl, ?_⟩
  simp only [commitResult_res, commitResult_mcause]
  refine ⟨fun h => Prod.ext_iff.1 (endOutcome_of_no_sync h),
    fun h => Prod.ext_iff.1 (endOutcome_of_short_header h),
    fun h => Prod.ext_iff.1 (endOutcome_of_short_payload h), fun hp => ?_, fun h => by rw [h]; rfl⟩
  rw [endOutcome_of_complete hp]
  exact ⟨fun h8 => Prod.ext_iff.1 (classify_battery h8),
    fun hC h5 hsix => Prod.ext_iff.1 (classify_weight hC h5 hsix),
    fun hC h5 hsix => Prod.ext_iff.1 (classify_short hC h5 hsix),
    fun h8 hC => Prod.ext_iff.1 (classify_unrecog h8 hC)⟩

/-! ### What DEND commits -/

/-- The result registers of a frame result (R94). -/
theorem commitResult_of_frame {p : RxCkFrom} {w : Working} {m : Memory} {res : ResCode} {mc : MCause}
    (h : res.isFrame = true) : commitResult p w m res mc =
      { res := res, mcause := mc, ckstat := ckStatus w (rxChecksum p w m),
        dtopic := w.wtopic, dtype := w.wtype, dsize := w.wsize,
        dcke := (rxChecksum p w m).1, dcko := (rxChecksum p w m).2,
        drxcke := if 1 ≤ w.ckcnt then w.wck0 else 0,
        drxcko := if w.ckcnt = 2 then w.wck1 else 0 } := by
  simp [commitResult, h]

theorem isFrame_iff {res : ResCode} :
    res.isFrame = true ↔ res = .battery ∨ res = .weight ∨ res = .unrecog := by
  cases res <;> simp [ResCode.isFrame]

/-- Settles O25: the commit of a frame result, and that of any other. -/
theorem dendCommitsResultRegisters : Obligations.DendCommitsResultRegisters := by
  unfold Obligations.DendCommitsResultRegisters
  intro s
  refine ⟨_, exec_dend s, ?_⟩
  simp only [commitResult_res, commitResult_mcause, Prod.mk.eta]
  refine ⟨trivial, fun h => ?_, fun h => ?_, endOutcome_ne_noResult _, trivial⟩
  · rw [commitResult_of_frame (isFrame_iff.2 h)]
    have hnone : 1 ≤ s.working.ckcnt ↔ ¬ s.working.ckcnt = 0 := by bv_omega
    have hboth : s.working.ckcnt < 2 ↔ s.working.ckcnt.toNat < 2 := BitVec.lt_def
    simp only [ckStatus, hnone, hboth, ite_not, Prod.mk.eta, and_self]
  · rw [commitResult_of_not_frame (by rcases h with h | h <;> rw [h] <;> rfl)]

/-- The seven low bits of a byte, zero-extended, are the byte without its bit 7 (R88). -/
theorem setWidth_low_seven (b : Byte) : (b.extractLsb' 0 7).setWidth 8 = b &&& 0x7F := by
  revert b
  decide

/-- Settles O26. -/
theorem dendCommitsBattery : Obligations.DendCommitsBattery := by
  unfold Obligations.DendCommitsBattery
  intro s hp htopic
  have hout : endOutcome s.working = (.battery, .noCause) :=
    (endOutcome_of_complete hp).trans (classify_battery htopic)
  have hlow : (s.working.wtype &&& 0x7F).setWidth 7 = s.working.wtype.extractLsb' 0 7 := by
    rw [← setWidth_low_seven]
    simp
  refine ⟨_, exec_dend s, ?_, ?_⟩
  · simp only [hout, commitObservables, commitBattery, hlow]
  · rw [exec_rdreg_mapped (r := .battery) rfl, ← setWidth_low_seven]
    simp only [hout, regValue, batteryReg, commitObservables, commitBattery]

/-- rawMagnitude is little-endian (R89). -/
theorem rawMagnitude_toNat (lo hi : Byte) : (rawMagnitude lo hi).toNat = lo.toNat + 256 * hi.toNat := by
  have happend : rawMagnitude lo hi = (hi ++ lo : BitVec (8 + 8)) := by
    refine BitVec.eq_of_getLsbD_eq fun i hi' => ?_
    simp only [rawMagnitude, BitVec.getLsbD_or, BitVec.getLsbD_shiftLeft, BitVec.getLsbD_append,
      BitVec.getLsbD_setWidth]
    by_cases h : i < 8
    · simp [h, hi']
    · simp [h, hi', show i - 8 < 16 by omega, BitVec.getLsbD_of_ge lo i (by omega)]
  rw [happend, BitVec.toNat_append, ← Nat.shiftLeft_add_eq_or_of_lt lo.isLt, Nat.shiftLeft_eq]
  omega

/-- Settles O27. -/
theorem dendCommitsWeight : Obligations.DendCommitsWeight := by
  unfold Obligations.DendCommitsWeight
  intro s hp htopic htype hsize
  have hout : endOutcome s.working = (.weight, .noCause) :=
    (endOutcome_of_complete hp).trans (classify_weight htopic htype hsize)
  refine ⟨_, exec_dend s, ?_⟩
  simp only [hout, commitObservables, commitWeight, and_true, true_and]
  exact ⟨rawMagnitude_toNat _ _, bne_iff_ne⟩

/-! ### The checksum validator -/

/-- The region for each value of RX_CK_FROM, as the bytes in front of the payload (R97). -/
theorem rxRegion_eq (wsize wtype : Byte) (payload : List Byte) :
    rxRegion .from5 wsize wtype payload = payload ∧
    rxRegion .from4 wsize wtype payload = wtype :: payload ∧
    rxRegion .from3 wsize wtype payload = wsize :: wtype :: payload :=
  ⟨rfl, rfl, rfl⟩

/-- Settles O30: each byte in front of the payload counts to the even sum and swaps the places of the others. -/
theorem validatorSumsItsRegion : Obligations.ValidatorSumsItsRegion := by
  unfold Obligations.ValidatorSumsItsRegion
  rintro w m payload rfl
  simp only [rxChecksum, rxRegion_eq, checksum, sums_cons]
  exact ⟨rfl, rfl, rfl⟩

/-- The outcome sees the phase up to CKSUM against DONE, and the three header bytes (R87, R91). -/
theorem endOutcome_congr {w v : Working}
    (hp : w.phase = v.phase ∨
      (w.phase = .cksum ∨ w.phase = .done) ∧ (v.phase = .cksum ∨ v.phase = .done))
    (htopic : w.wtopic = v.wtopic) (hsize : w.wsize = v.wsize) (htype : w.wtype = v.wtype) :
    endOutcome w = endOutcome v := by
  rcases hp with hp | ⟨hw, hv⟩
  · simp only [endOutcome, hp, htopic, hsize, htype]
  · rw [endOutcome_of_complete hw, endOutcome_of_complete hv, htopic, hsize, htype]

/-- The frame view apart from the checksums is the header of a frame result, and 0 of any other (R94). -/
theorem commitResult_header (p : RxCkFrom) (w : Working) (m : Memory) (res : ResCode) (mc : MCause) :
    (commitResult p w m res mc).dtopic = (if res.isFrame then w.wtopic else 0) ∧
    (commitResult p w m res mc).dtype = (if res.isFrame then w.wtype else 0) ∧
    (commitResult p w m res mc).dsize = (if res.isFrame then w.wsize else 0) := by
  unfold commitResult
  split <;> simp_all [ResultRegs.reset]

/-- Of the working state, the observables see the type byte only (R88, R89). -/
theorem commitObservables_congr_working {w v : Working} (htype : w.wtype = v.wtype) (res : ResCode)
    (m : Memory) (o : Observables) : commitObservables res w m o = commitObservables res v m o := by
  cases res <;> simp only [commitObservables, commitBattery, htype]

/-- Settles O31: neither the outcome, nor the header that the frame view shows, nor the observables see the
checksum bytes or RX_CK_FROM. -/
theorem validatorIsInformational : Obligations.ValidatorIsInformational := by
  unfold Obligations.ValidatorIsInformational
  intro s t hp htopic hsize htype hpbuf hobs
  refine ⟨_, _, exec_dend s, exec_dend t, ?_⟩
  simp only [commitResult_res, commitResult_mcause, commitResult_header,
    endOutcome_congr hp htopic hsize htype, htopic, hsize, htype, hpbuf, hobs,
    commitObservables_congr_working htype, and_self]

/-! ### The first sync of a buffer (R85) -/

theorem syncAt_cons_succ {a : Byte} {cs : List Byte} {j : Nat} :
    SyncAt (a :: cs) (j + 1) ↔ SyncAt cs j := Iff.rfl

theorem syncAt_cons_cons_zero {a b : Byte} {cs : List Byte} :
    SyncAt (a :: b :: cs) 0 ↔ a = 0xEF ∧ b = 0xDD := by
  simp [SyncAt]

theorem SyncAt.lt_length {cs : List Byte} {j : Nat} (h : SyncAt cs j) : j + 1 < cs.length :=
  (List.getElem?_eq_some_iff.1 h.2).1

/-- There is at most one first sync. -/
theorem FirstSyncAt.unique {cs : List Byte} {i j : Nat} (hi : FirstSyncAt cs i) (hj : FirstSyncAt cs j) :
    i = j := by
  rcases lt_trichotomy i j with h | h | h
  · exact absurd hi.1 (hj.2 i h)
  · exact h
  · exact absurd hj.1 (hi.2 j h)

theorem findSync_of_sync {a b : Byte} (h : a = 0xEF ∧ b = 0xDD) (rest : List Byte) :
    findSync (a :: b :: rest) = some 0 := if_pos h

theorem findSync_of_not_sync {a b : Byte} (h : ¬ (a = 0xEF ∧ b = 0xDD)) (rest : List Byte) :
    findSync (a :: b :: rest) = (findSync (b :: rest)).map (· + 1) := if_neg h

/-- `findSync` finds nothing only where no sync is. -/
theorem not_syncAt_of_findSync_eq_none {cs : List Byte} (h : findSync cs = none) (j : Nat) :
    ¬ SyncAt cs j := by
  induction cs using findSync.induct generalizing j with
  | case1 => simp [SyncAt]
  | case2 a => simp [SyncAt]
  | case3 a b rest hsync => simp [findSync_of_sync hsync] at h
  | case4 a b rest hsync ih =>
    cases j with
    | zero => exact fun h0 => hsync (syncAt_cons_cons_zero.1 h0)
    | succ j => exact fun hj => ih (by simpa [findSync_of_not_sync hsync] using h) j (syncAt_cons_succ.1 hj)

/-- What `findSync` finds is the first sync. -/
theorem firstSyncAt_of_findSync {cs : List Byte} {start : Nat} (h : findSync cs = some start) :
    FirstSyncAt cs start := by
  induction cs using findSync.induct generalizing start with
  | case1 => cases h
  | case2 a => cases h
  | case3 a b rest hsync =>
    have hstart : start = 0 := by simpa [findSync_of_sync hsync, eq_comm] using h
    rw [hstart]
    exact ⟨syncAt_cons_cons_zero.2 hsync, fun j hj => absurd hj (Nat.not_lt_zero j)⟩
  | case4 a b rest hsync ih =>
    obtain ⟨i, hi, rfl⟩ : ∃ i, findSync (b :: rest) = some i ∧ i + 1 = start := by
      simpa [findSync_of_not_sync hsync] using h
    obtain ⟨hat, hfirst⟩ := ih hi
    refine ⟨syncAt_cons_succ.2 hat, fun j hj => ?_⟩
    cases j with
    | zero => exact fun h0 => hsync (syncAt_cons_cons_zero.1 h0)
    | succ j => exact fun h1 => hfirst j (Nat.lt_of_succ_lt_succ hj) (syncAt_cons_succ.1 h1)

theorem findSync_eq_some_iff {cs : List Byte} {start : Nat} :
    findSync cs = some start ↔ FirstSyncAt cs start := by
  refine ⟨firstSyncAt_of_findSync, fun h => ?_⟩
  cases hf : findSync cs with
  | none => exact absurd h.1 (not_syncAt_of_findSync_eq_none hf start)
  | some i => rw [(firstSyncAt_of_findSync hf).unique h]

theorem findSync_eq_none_iff {cs : List Byte} : findSync cs = none ↔ ∀ j, ¬ SyncAt cs j := by
  refine ⟨not_syncAt_of_findSync_eq_none, fun h => ?_⟩
  cases hf : findSync cs with
  | none => rfl
  | some i => exact absurd (firstSyncAt_of_findSync hf).1 (h i)

/-- A first sync lies in the buffer. -/
theorem findSync_add_two_le {cs : List Byte} {start : Nat} (h : findSync cs = some start) :
    start + 2 ≤ cs.length :=
  (firstSyncAt_of_findSync h).1.lt_length

/-- One more byte keeps a sync that is there, and completes one after a last byte 0xEF. -/
theorem findSync_append_singleton (cs : List Byte) (b : Byte) : findSync (cs ++ [b]) =
    (findSync cs).or (if cs.getLast? = some 0xEF ∧ b = 0xDD then some (cs.length - 1) else none) := by
  induction cs using findSync.induct with
  | case1 => simp [findSync]
  | case2 a => simp [findSync]
  | case3 a c rest hsync => simp [findSync_of_sync hsync]
  | case4 a c rest hsync ih =>
    rw [List.cons_append] at ih
    rw [List.cons_append, List.cons_append, findSync_of_not_sync hsync, findSync_of_not_sync hsync, ih,
      List.getLast?_cons_cons]
    cases findSync (c :: rest) with
    | some i => rfl
    | none => simp

/-! ### The frame of a buffer that grows by one byte (R47, R99) -/

section Growing

variable {cs : List Byte} {b : Byte} {i start : Nat}

theorem byteOf_append_of_ne (h : i ≠ cs.length) : byteOf (cs ++ [b]) i = byteOf cs i := by
  rcases Nat.lt_or_gt_of_ne h with h | h
  · simp [byteOf, List.getElem?_append_left h]
  · simp [byteOf, List.getElem?_eq_none h.le, List.getElem?_eq_none (l := cs ++ [b]) (by simpa using h)]

theorem byteOf_append_of_eq (h : i = cs.length) : byteOf (cs ++ [b]) i = b := by
  simp [byteOf, h]

theorem getElem?_append_of_ne (h : i ≠ cs.length) : (cs ++ [b])[i]? = cs[i]? := by
  rcases Nat.lt_or_gt_of_ne h with h | h
  · exact List.getElem?_append_left h
  · rw [List.getElem?_eq_none h.le, List.getElem?_eq_none (by simpa using h)]

theorem getElem?_append_of_eq (h : i = cs.length) : (cs ++ [b])[i]? = some b := by
  simp [h]

theorem drop_append_of_length_lt (h : cs.length < i) : (cs ++ [b]).drop i = cs.drop i := by
  rw [List.drop_eq_nil_of_le h.le, List.drop_eq_nil_of_le (by simpa using h)]

/-- The byte after the sync is the topic. -/
theorem refFrame_append_topic (h : cs.length = start + 2) :
    refFrame (cs ++ [b]) start = { refFrame cs start with topic := b } := by
  simp (disch := omega) only [refFrame, byteOf_append_of_ne, byteOf_append_of_eq, getElem?_append_of_ne,
    drop_append_of_length_lt]

theorem refFrame_append_size (h : cs.length = start + 3) :
    refFrame (cs ++ [b]) start = { refFrame cs start with sizeField := b } := by
  simp (disch := omega) only [refFrame, byteOf_append_of_ne, byteOf_append_of_eq, getElem?_append_of_ne,
    drop_append_of_length_lt, List.drop_eq_nil_of_le, List.take_nil, List.getElem?_eq_none]

theorem refFrame_append_type (h : cs.length = start + 4) :
    refFrame (cs ++ [b]) start = { refFrame cs start with type := b } := by
  simp (disch := omega) only [refFrame, byteOf_append_of_ne, byteOf_append_of_eq, getElem?_append_of_ne,
    drop_append_of_length_lt]

theorem refFrame_payload_length : (refFrame cs start).payload.length =
    min (refFrame cs start).sizeField.toNat (cs.length - (start + 5)) := by
  simp [refFrame]

theorem refFrame_append_payload (h5 : start + 5 ≤ cs.length)
    (hend : cs.length < start + (refFrame cs start).sizeField.toNat + 5) :
    refFrame (cs ++ [b]) start =
      { refFrame cs start with payload := (refFrame cs start).payload ++ [b] } := by
  simp only [refFrame] at hend ⊢
  have htake : ((cs ++ [b]).drop (start + 5)).take (byteOf cs (start + 3)).toNat =
      (cs.drop (start + 5)).take (byteOf cs (start + 3)).toNat ++ [b] := by
    rw [List.drop_append_of_le_length h5, List.take_of_length_le (by simp; omega),
      List.take_of_length_le (by simp; omega)]
  simp (disch := omega) only [byteOf_append_of_ne, getElem?_append_of_ne, htake]

/-- A byte after the payload is no payload byte. -/
theorem take_drop_append (h : start + (byteOf cs (start + 3)).toNat + 5 ≤ cs.length) :
    ((cs ++ [b]).drop (start + 5)).take (byteOf cs (start + 3)).toNat =
      (cs.drop (start + 5)).take (byteOf cs (start + 3)).toNat := by
  rw [List.drop_append_of_le_length (by omega), List.take_append_of_le_length (by simp; omega)]

theorem refFrame_append_ck0 (h : cs.length = start + (refFrame cs start).sizeField.toNat + 5) :
    refFrame (cs ++ [b]) start = { refFrame cs start with ck0 := some b } := by
  simp only [refFrame] at h ⊢
  simp (disch := omega) only [byteOf_append_of_ne, getElem?_append_of_ne, getElem?_append_of_eq,
    take_drop_append]

theorem refFrame_append_ck1 (h : cs.length = start + (refFrame cs start).sizeField.toNat + 6) :
    refFrame (cs ++ [b]) start = { refFrame cs start with ck1 := some b } := by
  simp only [refFrame] at h ⊢
  simp (disch := omega) only [byteOf_append_of_ne, getElem?_append_of_ne, getElem?_append_of_eq,
    take_drop_append]

/-- Bytes after the frame and both checksum bytes are ignored. -/
theorem refFrame_append_ignored (h : start + (refFrame cs start).sizeField.toNat + 7 ≤ cs.length) :
    refFrame (cs ++ [b]) start = refFrame cs start := by
  simp only [refFrame] at h ⊢
  simp (disch := omega) only [byteOf_append_of_ne, getElem?_append_of_ne, take_drop_append]

end Growing

/-! ### The working state after the bytes fed (R82, R83, R85) -/

/-- The phase with `len` bytes fed, the first sync at `start` and this sizeField. -/
def framePhase (len start : Nat) (size : Byte) : Phase :=
  if len = start + 2 then .topic
  else if len = start + 3 then .size
  else if len = start + 4 then .type
  else if len < start + size.toNat + 5 then .payload
  else if len < start + size.toNat + 7 then .cksum
  else .done

section FramePhase

variable {len start : Nat} {size : Byte}

theorem framePhase_topic (h : len = start + 2) : framePhase len start size = .topic := if_pos h

theorem framePhase_size (h : len = start + 3) : framePhase len start size = .size := by
  simp [framePhase, h]

theorem framePhase_type (h : len = start + 4) : framePhase len start size = .type := by
  simp [framePhase, h]

theorem framePhase_of_header (h : start + 5 ≤ len) : framePhase len start size =
    if len < start + size.toNat + 5 then .payload
    else if len < start + size.toNat + 7 then .cksum else .done := by
  rw [framePhase, if_neg (by omega), if_neg (by omega), if_neg (by omega)]

theorem framePhase_payload (h5 : start + 5 ≤ len) (h : len < start + size.toNat + 5) :
    framePhase len start size = .payload := by
  rw [framePhase_of_header h5, if_pos h]

theorem framePhase_cksum (h : start + size.toNat + 5 ≤ len) (h7 : len < start + size.toNat + 7) :
    framePhase len start size = .cksum := by
  rw [framePhase_of_header (by omega), if_neg (by omega), if_pos h7]

theorem framePhase_done (h : start + size.toNat + 7 ≤ len) : framePhase len start size = .done := by
  rw [framePhase_of_header (by omega), if_neg (by omega), if_neg (by omega)]

theorem framePhase_pastSync (len start : Nat) (size : Byte) :
    (framePhase len start size).pastSync = true := by
  unfold framePhase
  split_ifs <;> rfl

end FramePhase

/-- How many of a frame's checksum bytes the buffer has: CKCNT (R18). -/
def RefFrame.ckCount (f : RefFrame) : BitVec 2 :=
  if f.ck1.isSome then 2 else if f.ck0.isSome then 1 else 0

/-- The working state that has captured what the buffer has of a frame. -/
def RefFrame.captured (f : RefFrame) (phase : Phase) : Working :=
  { phase := phase, dactive := true, wtopic := f.topic, wsize := f.sizeField, wtype := f.type,
    wcnt := BitVec.ofNat 8 f.payload.length, ckcnt := f.ckCount, wck0 := f.ck0.getD 0,
    wck1 := f.ck1.getD 0 }

/-- The working state after the bytes `cs`, whose first sync is at `start`. -/
def Working.located (cs : List Byte) (start : Nat) : Working :=
  (refFrame cs start).captured (framePhase cs.length start (refFrame cs start).sizeField)

/-- The working state while no sync has been seen: only the last byte counts. -/
def Working.hunting (cs : List Byte) : Working :=
  { Working.reset with dactive := true, phase := if cs.getLast? = some 0xEF then .sync1 else .hunt }

section Located

variable {cs : List Byte} {b : Byte} {start : Nat} {m : Memory}

/-- The frame without its bytes after the header, while the header is not complete. -/
theorem refFrame_of_header (h : cs.length ≤ start + 4) :
    (refFrame cs start).payload = [] ∧ (refFrame cs start).ck0 = none ∧ (refFrame cs start).ck1 = none := by
  simp only [refFrame]
  refine ⟨?_, List.getElem?_eq_none (by omega), List.getElem?_eq_none (by omega)⟩
  rw [List.drop_eq_nil_of_le (by omega), List.take_nil]

/-- A checksum byte is in the buffer exactly when the buffer is that long. -/
theorem refFrame_ck_isSome :
    ((refFrame cs start).ck0.isSome ↔ start + (refFrame cs start).sizeField.toNat + 5 < cs.length) ∧
    ((refFrame cs start).ck1.isSome ↔ start + (refFrame cs start).sizeField.toNat + 6 < cs.length) := by
  simp only [refFrame]
  simp

theorem scanByte_located_topic (h : cs.length = start + 2) :
    scanByte b (.located cs start) m = .ok (.located (cs ++ [b]) start, m) := by
  rw [scanByte_topic b m (framePhase_topic h)]
  simp only [Working.located, refFrame_append_topic h, List.length_append, List.length_singleton,
    framePhase_size (congrArg (· + 1) h)]
  rfl

theorem scanByte_located_size (h : cs.length = start + 3) :
    scanByte b (.located cs start) m = .ok (.located (cs ++ [b]) start, m) := by
  rw [scanByte_size b m (framePhase_size h)]
  simp only [Working.located, refFrame_append_size h, List.length_append, List.length_singleton,
    framePhase_type (congrArg (· + 1) h)]
  rfl

theorem scanByte_located_type (h : cs.length = start + 4) :
    scanByte b (.located cs start) m = .ok (.located (cs ++ [b]) start, m) := by
  have hnext : framePhase (cs.length + 1) start (refFrame cs start).sizeField =
      if (refFrame cs start).sizeField = 0 then .cksum else .payload := by
    split
    · next h0 => exact framePhase_cksum (by simp [h0, h]) (by simp [h0, h])
    · next h0 => exact framePhase_payload (by omega) (by bv_omega)
  obtain ⟨hpay, -, -⟩ := refFrame_of_header h.le
  rw [scanByte_type b m (framePhase_type h)]
  simp [Working.located, RefFrame.captured, RefFrame.ckCount, refFrame_append_type h, hnext, hpay]

theorem located_wcnt_toNat : (Working.located cs start).wcnt.toNat = (refFrame cs start).payload.length := by
  have hsize := (refFrame cs start).sizeField.isLt
  have hpay := refFrame_payload_length (cs := cs) (start := start)
  simp only [Working.located, RefFrame.captured, BitVec.toNat_ofNat]
  exact Nat.mod_eq_of_lt (by omega)

theorem scanByte_located_payload (h5 : start + 5 ≤ cs.length)
    (hend : cs.length < start + (refFrame cs start).sizeField.toNat + 5) :
    scanByte b (.located cs start) m = .ok (.located (cs ++ [b]) start,
      Memory.write m (refFrame cs start).payload.length b) := by
  have hpay := refFrame_payload_length (cs := cs) (start := start)
  have hcnt : (Working.located cs start).wcnt < (Working.located cs start).wsize := by
    rw [BitVec.lt_def, located_wcnt_toNat]
    show _ < (refFrame cs start).sizeField.toNat
    omega
  have hnext : framePhase (cs.length + 1) start (refFrame cs start).sizeField =
      if (refFrame cs start).payload.length + 1 = (refFrame cs start).sizeField.toNat
        then .cksum else .payload := by
    split
    · exact framePhase_cksum (by omega) (by omega)
    · exact framePhase_payload (by omega) (by omega)
  rw [scanByte_payload b m (framePhase_payload h5 hend) hcnt, located_wcnt_toNat]
  simp [Working.located, RefFrame.captured, RefFrame.ckCount, refFrame_append_payload h5 hend, hnext,
    BitVec.ofNat_add]

theorem scanByte_located_ck0 (h : cs.length = start + (refFrame cs start).sizeField.toNat + 5) :
    scanByte b (.located cs start) m = .ok (.located (cs ++ [b]) start, m) := by
  obtain ⟨hck0, hck1⟩ := refFrame_ck_isSome (cs := cs) (start := start)
  have hnone : (Working.located cs start).ckcnt = 0 := by
    simp [Working.located, RefFrame.captured, RefFrame.ckCount, hck0, hck1, h]
  rw [scanByte_cksum_first b m (framePhase_cksum h.ge (by omega)) hnone]
  simp [Working.located, RefFrame.captured, RefFrame.ckCount, refFrame_append_ck0 h, hck1, h, framePhase_cksum]

theorem scanByte_located_ck1 (h : cs.length = start + (refFrame cs start).sizeField.toNat + 6) :
    scanByte b (.located cs start) m = .ok (.located (cs ++ [b]) start, m) := by
  obtain ⟨hck0, hck1⟩ := refFrame_ck_isSome (cs := cs) (start := start)
  have hone : (Working.located cs start).ckcnt = 1 := by
    simp [Working.located, RefFrame.captured, RefFrame.ckCount, hck0, hck1, h]
  rw [scanByte_cksum_second b m (framePhase_cksum (by omega) (by omega)) hone]
  simp [Working.located, RefFrame.captured, RefFrame.ckCount, refFrame_append_ck1 h, h, framePhase_done]

theorem scanByte_located_ignored (h : start + (refFrame cs start).sizeField.toNat + 7 ≤ cs.length) :
    scanByte b (.located cs start) m = .ok (.located (cs ++ [b]) start, m) := by
  rw [scanByte_done b m (framePhase_done h)]
  simp only [Working.located, refFrame_append_ignored h, List.length_append, List.length_singleton,
    framePhase_done h, framePhase_done (Nat.le_succ_of_le h)]

/-- A located frame takes any byte: it is captured in its place, and a payload byte is stored behind those
stored before. -/
theorem scanByte_located (hlen : start + 2 ≤ cs.length) (b : Byte) (m : Memory) :
    ∃ m', scanByte b (.located cs start) m = .ok (.located (cs ++ [b]) start, m') ∧
      ((m' = m ∧ (refFrame (cs ++ [b]) start).payload = (refFrame cs start).payload) ∨
       (m' = Memory.write m (refFrame cs start).payload.length b ∧
        (refFrame cs start).payload.length < pbufEntries ∧
        (refFrame (cs ++ [b]) start).payload = (refFrame cs start).payload ++ [b])) := by
  have hsize := (refFrame cs start).sizeField.isLt
  have hpay := refFrame_payload_length (cs := cs) (start := start)
  have hplace : cs.length = start + 2 ∨ cs.length = start + 3 ∨ cs.length = start + 4 ∨
      (start + 5 ≤ cs.length ∧ cs.length < start + (refFrame cs start).sizeField.toNat + 5) ∨
      cs.length = start + (refFrame cs start).sizeField.toNat + 5 ∨
      cs.length = start + (refFrame cs start).sizeField.toNat + 6 ∨
      start + (refFrame cs start).sizeField.toNat + 7 ≤ cs.length := by omega
  rcases hplace with h | h | h | ⟨h5, hend⟩ | h | h | h
  · exact ⟨m, scanByte_located_topic h, .inl ⟨rfl, by rw [refFrame_append_topic h]⟩⟩
  · exact ⟨m, scanByte_located_size h, .inl ⟨rfl, by rw [refFrame_append_size h]⟩⟩
  · exact ⟨m, scanByte_located_type h, .inl ⟨rfl, by rw [refFrame_append_type h]⟩⟩
  · have hindex : (refFrame cs start).payload.length < pbufEntries := by unfold pbufEntries; omega
    exact ⟨_, scanByte_located_payload h5 hend,
      .inr ⟨rfl, hindex, by rw [refFrame_append_payload h5 hend]⟩⟩
  · exact ⟨m, scanByte_located_ck0 h, .inl ⟨rfl, by rw [refFrame_append_ck0 h]⟩⟩
  · exact ⟨m, scanByte_located_ck1 h, .inl ⟨rfl, by rw [refFrame_append_ck1 h]⟩⟩
  · exact ⟨m, scanByte_located_ignored h, .inl ⟨rfl, by rw [refFrame_append_ignored h]⟩⟩

/-- Right after the sync the scanner waits for the topic, with nothing captured. -/
theorem located_at_sync (h : cs.length = start + 2) :
    Working.located cs start = { Working.reset with dactive := true, phase := .topic } := by
  obtain ⟨hpay, hck0, hck1⟩ := refFrame_of_header (cs := cs) (start := start) (by omega)
  have hbyte (i : Nat) (hi : cs.length ≤ i) : byteOf cs i = 0 := by
    simp [byteOf, List.getElem?_eq_none hi]
  rw [Working.located, framePhase_topic h]
  simp only [RefFrame.captured, RefFrame.ckCount, hpay, hck0, hck1]
  simp [refFrame, hbyte, h, Working.reset]

end Located

/-- The working state after the bytes `cs` from HUNT: a located frame from the first sync on. -/
def Working.fed (cs : List Byte) : Working :=
  match findSync cs with
  | none => .hunting cs
  | some start => .located cs start

theorem fed_of_no_sync {cs : List Byte} (h : findSync cs = none) : Working.fed cs = .hunting cs := by
  rw [Working.fed, h]

theorem fed_of_sync {cs : List Byte} {start : Nat} (h : findSync cs = some start) :
    Working.fed cs = .located cs start := by
  rw [Working.fed, h]

theorem fed_active (cs : List Byte) : { Working.fed cs with dactive := true } = Working.fed cs := by
  unfold Working.fed
  split <;> rfl

/-- Before the sync only the phase moves: 0xEF leads to SYNC1, and 0xDD after it completes the sync. -/
theorem scanByte_hunting {cs : List Byte} (h : findSync cs = none) (b : Byte) (m : Memory) :
    scanByte b (.hunting cs) m = .ok (.fed (cs ++ [b]), m) := by
  have hnext := findSync_append_singleton cs b
  rw [h, Option.none_or] at hnext
  by_cases hlast : cs.getLast? = some 0xEF
  · rw [scanByte_sync1 b m (if_pos hlast)]
    by_cases hb : b = 0xDD
    · rw [if_pos ⟨hlast, hb⟩] at hnext
      have hpos : 0 < cs.length := List.length_pos_iff.2 (by rintro rfl; simp at hlast)
      rw [fed_of_sync hnext, located_at_sync (by simp; omega), if_pos hb]
      rfl
    · rw [if_neg fun hand => hb hand.2] at hnext
      rw [if_neg hb]
      simp [fed_of_no_sync hnext, Working.hunting]
  · rw [if_neg fun hand => hlast hand.1] at hnext
    rw [scanByte_hunt b m (if_neg hlast)]
    simp [fed_of_no_sync hnext, Working.hunting]

/-! ### The machine after the bytes fed -/

/-- PBUF starts with the payload `p`. -/
def Memory.Holds (m : Memory) (p : List Byte) : Prop := ∀ k b, p[k]? = some b → Memory.read m k = b

theorem Memory.Holds.write {m : Memory} {p : List Byte} (hm : Memory.wf m) (h : Memory.Holds m p)
    (b : Byte) : Memory.Holds (Memory.write m p.length b) (p ++ [b]) := by
  intro k c hk
  by_cases hkp : k = p.length
  · rw [getElem?_append_of_eq hkp, Option.some.injEq] at hk
    rw [hkp, Memory.read_write_same hm, hk]
  · rw [getElem?_append_of_ne hkp] at hk
    rw [Memory.read_write_other hkp, h k c hk]

theorem Memory.Holds.firstBytes {m : Memory} {p : List Byte} (h : Memory.Holds m p) :
    Memory.firstBytes m p.length = p := by
  refine List.ext_getElem (by simp) fun k hk hkp => ?_
  simpa [Memory.firstBytes] using h k p[k] (List.getElem?_eq_getElem hkp)

/-- Working state and PBUF after the bytes `cs` from HUNT; DACTIVE may still be 0 when `cs` is empty. -/
structure Fed (cs : List Byte) (w : Working) (m : Memory) : Prop where
  working : { w with dactive := true } = Working.fed cs
  memory : Memory.wf m
  payload : ∀ start, findSync cs = some start → Memory.Holds m (refFrame cs start).payload

/-- In HUNT the invariant leaves nothing captured (R82, R83). -/
theorem Working.Inv.fed_nil {w : Working} {m : Memory} (hw : w.Inv) (hp : w.phase = .hunt)
    (hm : Memory.wf m) : Fed [] w m := by
  obtain ⟨htopic, hsize⟩ := hw.beforeTopic (.inl hp)
  obtain ⟨htype, hcnt⟩ := hw.beforeType (.inl hp)
  obtain ⟨hck, hck0⟩ := hw.beforeCksum (by simp [hp]) (by simp [hp])
  have hck1 := hw.beforeDone (by simp [hp])
  refine ⟨?_, hm, fun start h => by cases h⟩
  rw [fed_of_no_sync rfl, Working.hunting, Working.reset, htopic.symm]
  simp [hp, htopic, hsize, htype, hcnt, hck, hck0, hck1]

/-- One more byte fed: the scanner has a row for it. -/
theorem Fed.scanByte {cs : List Byte} {w : Working} {m : Memory} (h : Fed cs w m) (b : Byte) :
    ∃ w' m', scanByte b { w with dactive := true } m = .ok (w', m') ∧ Fed (cs ++ [b]) w' m' := by
  rw [h.working]
  cases hsync : findSync cs with
  | none =>
    refine ⟨_, m, fed_of_no_sync hsync ▸ scanByte_hunting hsync b m, fed_active _, h.memory, ?_⟩
    intro start hstart k c hk
    rw [findSync_append_singleton, hsync, Option.none_or, Option.ite_none_right_eq_some] at hstart
    obtain ⟨-, hstart⟩ := hstart
    obtain ⟨hpay, -, -⟩ := refFrame_of_header (cs := cs ++ [b]) (start := start) (by
      simp only [List.length_append, List.length_singleton]; injection hstart; omega)
    rw [hpay] at hk
    cases hk
  | some start =>
    have hnext : findSync (cs ++ [b]) = some start := by
      rw [findSync_append_singleton, hsync, Option.some_or]
    obtain ⟨m', hscan, hm'⟩ := scanByte_located (findSync_add_two_le hsync) b m
    rw [← fed_of_sync hsync, ← fed_of_sync hnext] at hscan
    refine ⟨_, m', hscan, fed_active _, scanByte_wf hscan h.memory, fun start' hstart' => ?_⟩
    obtain rfl : start = start' := Option.some.inj (hnext.symm.trans hstart')
    rcases hm' with ⟨rfl, hpay⟩ | ⟨rfl, -, hpay⟩
    · exact hpay ▸ h.payload start hsync
    · exact hpay ▸ (h.payload start hsync).write h.memory b

theorem Fed.phase_eq {cs : List Byte} {w : Working} {m : Memory} (h : Fed cs w m) :
    w.phase = (Working.fed cs).phase :=
  (congrArg Working.phase h.working :)

/-- The fields captured from the frame of the first sync. -/
theorem Fed.captured {cs : List Byte} {w : Working} {m : Memory} (h : Fed cs w m) {start : Nat}
    (hsync : findSync cs = some start) :
    w.wtopic = (refFrame cs start).topic ∧ w.wsize = (refFrame cs start).sizeField ∧
      w.wtype = (refFrame cs start).type ∧ w.ckcnt = (refFrame cs start).ckCount ∧
      w.wck0 = (refFrame cs start).ck0.getD 0 ∧ w.wck1 = (refFrame cs start).ck1.getD 0 := by
  have hw : { w with dactive := true } = Working.located cs start := h.working.trans (fed_of_sync hsync)
  exact ⟨(congrArg Working.wtopic hw :), (congrArg Working.wsize hw :), (congrArg Working.wtype hw :),
    (congrArg Working.ckcnt hw :), (congrArg Working.wck0 hw :), (congrArg Working.wck1 hw :)⟩

/-- Feeding a buffer from HUNT completes and responds OK to every byte. -/
theorem execAll_dbytes {s : State} (h : Fed [] s.working s.pbuf) (cs : List Byte) :
    ∃ w m, execAll (cs.map .dbyte) s = .next { s with
        working := w, pbuf := m, responses := s.responses ++ List.replicate cs.length 0x0000 } ∧
      Fed cs w m := by
  induction cs using List.reverseRecOn with
  | nil => exact ⟨s.working, s.pbuf, by simp [execAll], h⟩
  | append_singleton cs b ih =>
    obtain ⟨w, m, hrun, hfed⟩ := ih
    obtain ⟨w', m', hscan, hfed'⟩ := hfed.scanByte b
    refine ⟨w', m', ?_, hfed'⟩
    rw [List.map_append]
    refine (execAll_append_singleton hrun (exec_dbyte hscan)).trans ?_
    simp [List.replicate_succ']

/-! ### The scanner finds the first sync (R85) -/

theorem hunting_pastSync (cs : List Byte) : (Working.hunting cs).phase.pastSync = false := by
  unfold Working.hunting
  split_ifs <;> rfl

theorem byteOf_of_getElem? {cs : List Byte} {i : Nat} {b : Byte} (h : cs[i]? = some b) :
    byteOf cs i = b := by
  simp [byteOf, h]

/-- Past the sync exactly when there is one. -/
theorem fed_pastSync (cs : List Byte) : (Working.fed cs).phase.pastSync = true ↔ ∃ j, SyncAt cs j := by
  cases h : findSync cs with
  | none => simp [fed_of_no_sync h, hunting_pastSync, findSync_eq_none_iff.1 h]
  | some start =>
    rw [fed_of_sync h]
    exact iff_of_true (framePhase_pastSync _ _ _) ⟨start, (findSync_eq_some_iff.1 h).1⟩

/-- Settles O22: the working state after the bytes fed is the frame of the first sync,
as far as they reach. -/
theorem scannerFindsFirstSync : Obligations.ScannerFindsFirstSync := by
  unfold Obligations.ScannerFindsFirstSync
  intro cs s hinv hp hm
  obtain ⟨w, m, hrun, hfed⟩ := execAll_dbytes (hinv.fed_nil hp hm) cs
  refine ⟨_, hrun, hfed.phase_eq ▸ fed_pastSync cs, fun hno => ?_, fun start hstart => ?_⟩
  · rw [hfed.phase_eq, fed_of_no_sync (findSync_eq_none_iff.2 hno)]
    rfl
  · have hsync := findSync_eq_some_iff.2 hstart
    obtain ⟨htopic, hsize, htype, -, hck0, hck1⟩ := hfed.captured hsync
    simp only [refFrame] at htopic hsize htype hck0 hck1
    rw [← hsize] at hck0 hck1
    refine ⟨fun b hb => htopic.trans (byteOf_of_getElem? hb), fun b hb => hsize.trans (byteOf_of_getElem? hb),
      fun b hb => htype.trans (byteOf_of_getElem? hb), fun k b hk hb => hfed.payload start hsync k b ?_,
      fun b hb => ?_, fun b hb => ?_⟩
    · simp only [refFrame, ← hsize]
      rw [List.getElem?_take_of_lt hk, List.getElem?_drop, hb]
    · rw [hck0, hb, Option.getD_some]
    · rw [hck1, hb, Option.getD_some]

/-! ### `decodeRef`, by where the buffer ends (R99) -/

section Reference

variable {buf : List Byte} {start : Nat}

theorem decodeRef_of_no_sync (h : findSync buf = none) : decodeRef buf = .noFrame := by
  rw [decodeRef, h]

theorem decodeRef_of_short_header (h : findSync buf = some start) (hlen : buf.length ≤ start + 3) :
    decodeRef buf = .malformed .hdrTrunc := by
  simp only [decodeRef, h, ge_iff_le, hlen, if_true]

theorem decodeRef_of_short_payload (h : findSync buf = some start) (h4 : start + 4 ≤ buf.length)
    (hlen : buf.length < start + (refFrame buf start).sizeField.toNat + 5) :
    decodeRef buf = .malformed .length := by
  have hlen' : start + (byteOf buf (start + 3)).toNat + 5 > buf.length := hlen
  simp only [decodeRef, h, if_neg (show ¬ start + 3 ≥ buf.length by omega), if_pos hlen']

theorem decodeRef_of_complete (h : findSync buf = some start)
    (hlen : start + (refFrame buf start).sizeField.toNat + 5 ≤ buf.length) :
    decodeRef buf = refClassify (refFrame buf start) := by
  have hlen' : ¬ start + (byteOf buf (start + 3)).toNat + 5 > buf.length := Nat.not_lt.2 hlen
  simp only [decodeRef, h, if_neg (show ¬ start + 3 ≥ buf.length by omega), if_neg hlen']

/-- The rows of the reference's field decode are those of `classify` (R91, R99). -/
theorem refClassify_cases (f : RefFrame) :
    (classify f.topic f.type f.sizeField = (.battery, .noCause) ∧
      refClassify f = .battery f (f.type.extractLsb' 0 7)) ∨
    (classify f.topic f.type f.sizeField = (.weight, .noCause) ∧ 6 ≤ f.sizeField.toNat ∧
      refClassify f = .weight f (rawMagnitude (byteOf f.payload 0) (byteOf f.payload 1))
        (unitExp (byteOf f.payload 4)) (byteOf f.payload 5 &&& 0x02 != 0)) ∨
    (classify f.topic f.type f.sizeField = (.malformed, .short) ∧ refClassify f = .malformed .short) ∨
    (classify f.topic f.type f.sizeField = (.unrecog, .noCause) ∧ refClassify f = .unrecog f) := by
  unfold refClassify
  split_ifs with h8 hC hsize
  · exact .inl ⟨classify_battery h8, rfl⟩
  · exact .inr (.inr (.inl ⟨classify_short hC.1 hC.2 hsize, rfl⟩))
  · exact .inr (.inl ⟨classify_weight hC.1 hC.2 (Nat.not_lt.1 hsize), Nat.not_lt.1 hsize, rfl⟩)
  · exact .inr (.inr (.inr ⟨classify_unrecog h8 hC, rfl⟩))

end Reference

/-! ### What DEND commits of the bytes fed (R94, R97, R99) -/

/-- DEND in `w` and `m` commits the result `r`, whatever RX_CK_FROM and the observables. -/
structure Commits (w : Working) (m : Memory) (r : RefResult) : Prop where
  regs : ∀ p, commitResult p w m (endOutcome w).1 (endOutcome w).2 = r.regs p
  observables : ∀ o, commitObservables (endOutcome w).1 w m o = r.observables o
  payload : Memory.Holds m r.payload

theorem Memory.holds_nil (m : Memory) : Memory.Holds m [] := fun k b h => by cases h

theorem commits_noFrame {w : Working} (h : endOutcome w = (.noFrame, .noCause)) (m : Memory) :
    Commits w m .noFrame :=
  ⟨fun p => by rw [h]; exact commitResult_of_not_frame rfl, fun o => by rw [h]; rfl, Memory.holds_nil m⟩

theorem commits_malformed {w : Working} {cause : MCause} (h : endOutcome w = (.malformed, cause))
    (m : Memory) : Commits w m (.malformed cause) :=
  ⟨fun p => by rw [h]; exact commitResult_of_not_frame rfl, fun o => by rw [h]; rfl, Memory.holds_nil m⟩

section Complete

variable {buf : List Byte} {w : Working} {m : Memory} {start : Nat}

theorem refFrame_payload_length_of_complete
    (hlen : start + (refFrame buf start).sizeField.toNat + 5 ≤ buf.length) :
    (refFrame buf start).payload.length = (refFrame buf start).sizeField.toNat := by
  rw [refFrame_payload_length]
  omega

/-- All payload bytes of a complete frame are in PBUF. -/
theorem Fed.firstBytes_of_complete (h : Fed buf w m) (hsync : findSync buf = some start)
    (hlen : start + (refFrame buf start).sizeField.toNat + 5 ≤ buf.length) :
    Memory.firstBytes m (refFrame buf start).sizeField.toNat = (refFrame buf start).payload := by
  rw [← refFrame_payload_length_of_complete hlen]
  exact (h.payload start hsync).firstBytes

/-- Each payload byte of a complete frame is read back from PBUF. -/
theorem Fed.byteOf_payload (h : Fed buf w m) (hsync : findSync buf = some start)
    (hlen : start + (refFrame buf start).sizeField.toNat + 5 ≤ buf.length) {k : Nat}
    (hk : k < (refFrame buf start).sizeField.toNat) :
    byteOf (refFrame buf start).payload k = Memory.read m k := by
  rw [← h.firstBytes_of_complete hsync hlen]
  simp [byteOf, Memory.firstBytes, hk]

/-- The result registers of a complete frame, from what was captured of it. -/
theorem Fed.commitResult_of_complete (h : Fed buf w m) (hsync : findSync buf = some start)
    (hlen : start + (refFrame buf start).sizeField.toNat + 5 ≤ buf.length) {res : ResCode}
    (hres : res.isFrame = true) (p : RxCkFrom) :
    commitResult p w m res .noCause = refFrameRegs p res (refFrame buf start) := by
  obtain ⟨htopic, hsize, htype, hcnt, hck0, hck1⟩ := h.captured hsync
  have hck : (refFrame buf start).ck1.isSome → (refFrame buf start).ck0.isSome := by
    rw [refFrame_ck_isSome.1, refFrame_ck_isSome.2]
    omega
  have hsum : rxChecksum p w m = checksum (rxRegion p (refFrame buf start).sizeField
      (refFrame buf start).type (refFrame buf start).payload) := by
    rw [rxChecksum, hsize, htype, h.firstBytes_of_complete hsync hlen]
  rw [commitResult_of_frame hres]
  simp only [refFrameRegs, ckStatus, RefFrame.ckCount, hsum, htopic, hsize, htype, hcnt, hck0, hck1]
  cases h1 : (refFrame buf start).ck1 with
  | some c1 =>
    obtain ⟨c0, h0⟩ := Option.isSome_iff_exists.1 (hck (by rw [h1]; rfl))
    simp [h0]
  | none =>
    cases h0 : (refFrame buf start).ck0 with
    | some c0 => simp
    | none => simp

/-- A complete frame is classified as the reference does. -/
theorem Fed.commits_of_complete (h : Fed buf w m) (hsync : findSync buf = some start)
    (hlen : start + (refFrame buf start).sizeField.toNat + 5 ≤ buf.length)
    (hout : endOutcome w = classify w.wtopic w.wtype w.wsize) :
    Commits w m (refClassify (refFrame buf start)) := by
  obtain ⟨htopic, hsize, htype, -⟩ := h.captured hsync
  rw [htopic, hsize, htype] at hout
  have hregs {res : ResCode} (hres : res.isFrame = true) (hc : classify (refFrame buf start).topic
      (refFrame buf start).type (refFrame buf start).sizeField = (res, .noCause)) (p : RxCkFrom) :
      commitResult p w m (endOutcome w).1 (endOutcome w).2 = refFrameRegs p res (refFrame buf start) := by
    rw [hout, hc]
    exact h.commitResult_of_complete hsync hlen hres p
  rcases refClassify_cases (refFrame buf start) with
    ⟨hc, hr⟩ | ⟨hc, hsix, hr⟩ | ⟨hc, hr⟩ | ⟨hc, hr⟩ <;> rw [hr]
  · refine ⟨hregs rfl hc, fun o => ?_, h.payload start hsync⟩
    rw [hout, hc, ← htype]
    rfl
  · refine ⟨hregs rfl hc, fun o => ?_, h.payload start hsync⟩
    have hread (k : Nat) (hk : k < 6) : byteOf (refFrame buf start).payload k = Memory.read m k :=
      h.byteOf_payload hsync hlen (hk.trans_le hsix)
    rw [hout, hc, hread 0 (by omega), hread 1 (by omega), hread 4 (by omega), hread 5 (by omega)]
    rfl
  · exact commits_malformed (hout.trans hc) m
  · refine ⟨hregs rfl hc, fun o => ?_, h.payload start hsync⟩
    rw [hout, hc]
    rfl

end Complete

/-- After any bytes from HUNT, DEND commits what the reference returns of them. -/
theorem Fed.commits_decodeRef {buf : List Byte} {w : Working} {m : Memory} (h : Fed buf w m) :
    Commits w m (decodeRef buf) := by
  have hphase := h.phase_eq
  cases hsync : findSync buf with
  | none =>
    rw [fed_of_no_sync hsync] at hphase
    rw [decodeRef_of_no_sync hsync]
    refine commits_noFrame (endOutcome_of_no_sync ?_) m
    rw [hphase, Working.hunting]
    dsimp only
    split_ifs <;> simp
  | some start =>
    have hstart := findSync_add_two_le hsync
    rw [fed_of_sync hsync] at hphase
    rcases (by omega : buf.length = start + 2 ∨ buf.length = start + 3 ∨ start + 4 ≤ buf.length) with
      hlen | hlen | h4
    · rw [decodeRef_of_short_header hsync (by omega)]
      exact commits_malformed (endOutcome_of_short_header (.inl (hphase.trans (framePhase_topic hlen)))) m
    · rw [decodeRef_of_short_header hsync (by omega)]
      exact commits_malformed (endOutcome_of_short_header (.inr (hphase.trans (framePhase_size hlen)))) m
    · rcases Nat.lt_or_ge buf.length (start + (refFrame buf start).sizeField.toNat + 5) with hshort | hlen
      · rw [decodeRef_of_short_payload hsync h4 hshort]
        refine commits_malformed (endOutcome_of_short_payload ?_) m
        rcases Nat.eq_or_lt_of_le h4 with h4 | h5
        · exact .inl (hphase.trans (framePhase_type h4.symm))
        · exact .inr (hphase.trans (framePhase_payload h5 hshort))
      · rw [decodeRef_of_complete hsync hlen]
        refine h.commits_of_complete hsync hlen (endOutcome_of_complete ?_)
        rcases Nat.lt_or_ge buf.length (start + (refFrame buf start).sizeField.toNat + 7) with h7 | h7
        · exact .inl (hphase.trans (framePhase_cksum hlen h7))
        · exact .inr (hphase.trans (framePhase_done h7))

/-! ### DECODE -/

/-- DECODE of a buffer from an empty working state: the commands complete and respond OK, and the DEND commits
what the reference returns (R99). -/
theorem execAll_decode {s : State} (hw : s.working = .reset) (hm : Memory.wf s.pbuf) (buf : List Byte) :
    ∃ m, execAll (decodeCommands buf) s = .next { s with
        result := (decodeRef buf).regs s.rxCkFrom
        obs := (decodeRef buf).observables s.obs
        working := .reset
        pbuf := m
        responses := s.responses ++ List.replicate (buf.length + 1) 0x0000 } ∧
      Memory.wf m ∧ Memory.Holds m (decodeRef buf).payload := by
  have hidle : Fed [] s.working s.pbuf := ⟨by rw [hw]; rfl, hm, fun start h => by cases h⟩
  obtain ⟨w, m, hrun, hfed⟩ := execAll_dbytes hidle buf
  obtain ⟨hregs, hobs, hpay⟩ := hfed.commits_decodeRef
  refine ⟨m, ?_, hfed.memory, hpay⟩
  refine (execAll_append_singleton hrun (exec_dend _)).trans ?_
  simp [hregs, hobs, List.replicate_succ']

/-- Settles O32. -/
theorem decodeAgreesWithReference : Obligations.DecodeAgreesWithReference := by
  unfold Obligations.DecodeAgreesWithReference
  intro buf s hinv _ hidle
  obtain ⟨m, hrun, -, hpay⟩ := execAll_decode (hinv.working.idle hidle) hinv.memory buf
  exact ⟨_, hrun, rfl, rfl, rfl, hpay, rfl, rfl, rfl⟩

/-- Committing the same result again changes no observable. -/
theorem RefResult.observables_idem (r : RefResult) (o : Observables) :
    r.observables (r.observables o) = r.observables o := by
  cases r <;> rfl

/-- A frame result has a payload of DSIZE bytes; any other has none, and DSIZE 0. -/
theorem decodeRef_payload_length (buf : List Byte) (p : RxCkFrom) :
    (decodeRef buf).payload.length = ((decodeRef buf).regs p).dsize.toNat := by
  cases hsync : findSync buf with
  | none =>
    rw [decodeRef_of_no_sync hsync]
    rfl
  | some start =>
    rcases Nat.lt_or_ge buf.length (start + 4) with h4 | h4
    · rw [decodeRef_of_short_header hsync (Nat.le_of_lt_succ h4)]
      rfl
    · rcases Nat.lt_or_ge buf.length (start + (refFrame buf start).sizeField.toNat + 5) with hshort | hlen
      · rw [decodeRef_of_short_payload hsync h4 hshort]
        rfl
      · rw [decodeRef_of_complete hsync hlen]
        have hpay := refFrame_payload_length_of_complete hlen
        rcases refClassify_cases (refFrame buf start) with
          ⟨-, hr⟩ | ⟨-, -, hr⟩ | ⟨-, hr⟩ | ⟨-, hr⟩ <;> rw [hr]
        · exact hpay
        · exact hpay
        · rfl
        · exact hpay

/-- Settles O34: both runs commit what `decodeRef` returns of the buffer. -/
theorem sourceDecodeProperties : Obligations.SourceDecodeProperties := by
  unfold Obligations.SourceDecodeProperties
  intro buf s hinv hw
  obtain ⟨m, hrun, hm, hpay⟩ := execAll_decode hw hinv.memory buf
  obtain ⟨m', hrun', -, hpay'⟩ := execAll_decode (s := { s with
    result := _, obs := _, working := .reset, pbuf := m, responses := _ }) rfl hm buf
  refine ⟨_, _, hrun, hrun', fun hno => ?_, fun start size hfirst hsize hlen => ?_, rfl,
    RefResult.observables_idem _ _, fun i hi => ?_⟩
  · rw [decodeRef_of_no_sync (findSync_eq_none_iff.2 hno)]
    exact ⟨rfl, rfl⟩
  · have hshort : buf.length < start + (refFrame buf start).sizeField.toNat + 5 := by
      simpa [refFrame, byteOf_of_getElem? hsize] using hlen
    have h3 := (List.getElem?_eq_some_iff.1 hsize).1
    rw [decodeRef_of_short_payload (findSync_eq_some_iff.2 hfirst) h3 hshort]
    exact ⟨rfl, rfl, rfl⟩
  · rw [← decodeRef_payload_length] at hi
    have hget := List.getElem?_eq_getElem hi
    exact (hpay' i _ hget).trans (hpay i _ hget).symm

end Sys2Proof.Machine

/-! ## Access and control: NOP, SRST, RDPAY and what the read commands keep (42_access.md) -/

namespace Sys2Proof.Machine

/-! ### Words -/

/-- All ARG bits of OP 0x00 are reserved (R61, R102). -/
theorem decodeCmd_nop (arg : Byte) : decodeCmd (0x00#8 ++ arg) =
    if arg = 0x00 then .cmd .nop else .illegal (.reservedArgBits 0x00 arg) := by
  split
  case isTrue harg => rw [harg]; decide
  case isFalse harg => exact ((reservedArgBitsAreIllegal arg).1 harg).1

/-- Every mask of three bits is a legal SRST (R103). -/
theorem decodeCmd_srst (m : BitVec 3) : decodeCmd (0x01#8 ++ (0#5 ++ m)) = .cmd (.srst m) := by
  revert m
  decide

/-- Every ARG of OP 0x31 is an RDPAY of that index (R105). -/
theorem decodeCmd_rdpay (i : Byte) : decodeCmd (0x31#8 ++ i) = .cmd (.rdpay i) := by
  simp [decodeCmd, opField, argField]

/-! ### The commands, each with what it answers -/

section Commands

variable {s : State} {i : Byte}

/-- NOP completes in every state and only responds OK (R102). -/
theorem exec_nop (s : State) : exec .nop s = .next { s with responses := s.responses ++ [0x0000] } :=
  finish_next.2 rfl

/-- SRST completes in every state with the units of its mask reset and an OK response (R103). -/
theorem exec_srst (m : BitVec 3) (s : State) : exec (.srst m) s = .next { s with
    builder := if m.getLsbD 0 = true then .reset else s.builder
    working := if m.getLsbD 1 = true then .reset else s.working
    result := if m.getLsbD 2 = true then .reset else s.result
    obs := if m.getLsbD 2 = true then .reset else s.obs
    responses := s.responses ++ [0x0000] } := by
  have hexec : exec (.srst m) s = finish (softReset m s) := rfl
  rw [hexec, softReset_eq]
  exact finish_next.2 rfl

/-- RDPAY while a decode is in progress (R105). -/
theorem exec_rdpay_busy (h : s.working.dactive = true) (i : Byte) :
    exec (.rdpay i) s = .next { s with responses := s.responses ++ [0x0500] } := by
  have hexec : exec (.rdpay i) s = execRdpay i s := rfl
  rw [hexec, execRdpay, if_pos h]
  exact raiseError_next.2 rfl

/-- RDPAY of an index that holds no payload byte (R105). -/
theorem exec_rdpay_range (h : s.working.dactive = false) (hpay : payloadAt i s = none) :
    exec (.rdpay i) s = .next { s with responses := s.responses ++ [0x0400] } := by
  have hexec : exec (.rdpay i) s = execRdpay i s := rfl
  rw [hexec, execRdpay, h, hpay]
  exact raiseError_next.2 rfl

/-- RDPAY of a held payload byte (R105). -/
theorem exec_rdpay_held {b : Byte} (h : s.working.dactive = false) (hpay : payloadAt i s = some b) :
    exec (.rdpay i) s = .next { s with responses := s.responses ++ [0x00#8 ++ b] } := by
  have hexec : exec (.rdpay i) s = execRdpay i s := rfl
  rw [hexec, execRdpay, h, hpay]
  exact respondData_next.2 rfl

end Commands

/-! ### What the commands read and keep -/

/-- No payload byte is readable when no frame is held or the index is not below DSIZE (R105). -/
theorem payloadAt_eq_none {i : Byte} {s : State} : payloadAt i s = none ↔
    ¬ s.result.res.isFrame = true ∨ s.result.dsize.toNat ≤ i.toNat := by
  rw [payloadAt, ite_eq_right_iff, ← Nat.not_lt, ← not_and_or, BitVec.lt_def]
  simp only [reduceCtorEq, imp_false]

/-- A read command has one response that does not depend on the responses before it, and this response is
all that it adds (R106). -/
theorem exec_read_response {i : Instr} (hi : isReadCommand i = true) (s : State) :
    ∃ r, ∀ rs, exec i { s with responses := rs } = .next { s with responses := rs ++ [r] } := by
  cases i with
  | nop => exact ⟨0x0000, fun rs => exec_nop _⟩
  | rdreg a =>
    cases hreg : regAt a with
    | none => exact ⟨0x0300, fun rs => exec_rdreg_unmapped hreg _⟩
    | some r => exact ⟨0x00#8 ++ regValue s r, fun rs => exec_rdreg_mapped hreg _⟩
  | rdpay k =>
    cases hact : s.working.dactive with
    | true => exact ⟨0x0500, fun rs => exec_rdpay_busy (s := { s with responses := rs }) hact k⟩
    | false =>
      cases hpay : payloadAt k s with
      | none => exact ⟨0x0400, fun rs => exec_rdpay_range hact hpay⟩
      | some b => exact ⟨0x00#8 ++ b, fun rs => exec_rdpay_held hact hpay⟩
  | srst m | bstart t | bbyte b | bend | dbyte b | dend => cases hi

/-! ### The statements -/

/-- Settles O41: a read command only adds its response, whatever the responses before it, and SRST leaves
the units that its mask does not select. -/
theorem accessCommandsKeepState : Obligations.AccessCommandsKeepState := by
  unfold Obligations.AccessCommandsKeepState
  constructor
  · intro i s hi
    obtain ⟨r, hr⟩ := exec_read_response hi s
    exact ⟨r, hr s.responses, hr (s.responses ++ [r])⟩
  · intro m s t ht
    obtain rfl := Host.Outcome.next.inj ((exec_srst m s).symm.trans ht)
    have hkeep {b : Bool} (hb : b = false) : ¬ b = true := Bool.eq_false_iff.1 hb
    exact ⟨rfl, rfl, fun h => if_neg (hkeep h), fun h => if_neg (hkeep h),
      fun h => ⟨if_neg (hkeep h), if_neg (hkeep h)⟩⟩

/-- Settles O35. -/
theorem nopOnlyResponds : Obligations.NopOnlyResponds := ⟨decodeCmd_nop, exec_nop⟩

/-- Settles O36: the reserved ARG bits of SRST are ILLEGAL by R61. -/
theorem srstResetsSelectedUnits : Obligations.SrstResetsSelectedUnits :=
  ⟨decodeCmd_srst, fun arg => (reservedArgBitsAreIllegal arg).2, exec_srst⟩

/-- Settles O40: BUSY, then RANGE where no payload byte is readable, then the byte. -/
theorem rdpayReadsHeldPayload : Obligations.RdpayReadsHeldPayload := by
  unfold Obligations.RdpayReadsHeldPayload
  intro i s
  refine ⟨decodeCmd_rdpay i, fun hact => exec_rdpay_busy hact i, fun hact hno => ?_,
    fun hact hframe hlt => ?_⟩
  · rw [← isFrame_iff] at hno
    exact exec_rdpay_range hact (payloadAt_eq_none.2 hno)
  · exact exec_rdpay_held hact (payloadAt_eq_some.2 ⟨isFrame_iff.2 hframe, hlt, rfl⟩)

end Sys2Proof.Machine

/-! ## Responses: every command completes, and its code follows the table of causes (60_exceptions.md) -/

namespace Sys2Proof.Machine

/-! ### What a response does to the state -/

/-- The outcome is a next state of `s` with one response more, of this code; an error code comes with data
0x00 and with no other effect (R107, R110). -/
def Answers (s : State) (code : RespCode) (o : Host.Outcome State Fault Refusal) : Prop :=
  ∃ data t, o = .next t ∧ t.responses = s.responses ++ [responseWord code data] ∧
    (code ≠ .ok → data = 0x00 ∧ t = { s with responses := t.responses })

section Answers

variable {s t : State} {code c : RespCode} {o : Host.Outcome State Fault Refusal}

/-- An OK response may come with any data and any effect. -/
theorem Answers.ok (data : Byte) (hcode : code = .ok) (ho : o = .next t)
    (ht : t.responses = s.responses ++ [responseWord .ok data]) : Answers s code o :=
  ⟨data, t, ho, hcode ▸ ht, fun h => absurd hcode h⟩

/-- An error is answered by its response alone. -/
theorem Answers.error (hcode : code = c)
    (ho : o = .next { s with responses := s.responses ++ [responseWord c 0x00] }) : Answers s code o :=
  ⟨0x00, _, ho, hcode ▸ rfl, fun _ => ⟨rfl, rfl⟩⟩

/-- The response is one of the six of R59, with data only if it is OK (R58). -/
theorem Answers.exists_isResponse (h : Answers s code o) :
    ∃ t r, o = .next t ∧ t.responses = s.responses ++ [r] ∧ isResponse r := by
  obtain ⟨data, t, ho, ht, herr⟩ := h
  refine ⟨t, _, ho, ht, ?_⟩
  by_cases hok : code = .ok
  · exact .inl ⟨data, by rw [hok]⟩
  · exact .inr ⟨code, hok, by rw [(herr hok).1]⟩

end Answers

/-! ### The table of causes -/

/-- The table reads nothing of what the host still presents. -/
theorem codeByCause_port (d : Decoded) (s : State) (p : List HostEvent) :
    codeByCause d { s with port := p } = codeByCause d s := rfl

/-- With no decode in progress, RDPAY is out of RANGE exactly where no payload byte is readable (R105). -/
theorem codeByCause_rdpay {s : State} (h : ¬ s.working.dactive = true) (i : Byte) :
    codeByCause (.cmd (.rdpay i)) s = if payloadAt i s = none then .range else .ok := by
  simp only [codeByCause, if_neg h, ← isFrame_iff, payloadAt]
  by_cases hframe : s.result.res.isFrame = true
  · by_cases hi : i < s.result.dsize <;> simp [hframe, hi]
  · simp [hframe]

/-! ### DBYTE, the one command that can fault -/

/-- No working state of the invariant is one that the scanner faults in: in PAYLOAD, WCNT is below WSIZE and
so below 255, and in CKSUM, CKCNT is 0 or 1 (R83). -/
theorem Working.Inv.scanByte_ne_error {w : Working} (hw : w.Inv) (b : Byte) (m : Memory) (f : Fault) :
    scanByte b { w with dactive := true } m ≠ .error f := by
  intro h
  rcases scanByte_error h with ⟨-, hphase, hcnt⟩ | ⟨-, hphase, h0, h1⟩
  · have hlt : w.wcnt < w.wsize := hw.inPayload hphase
    simp only [pbufEntries] at hcnt
    bv_omega
  · have hlt : w.ckcnt < 2 := (hw.inCksum hphase).1
    simp only at h0 h1
    bv_omega

/-- DBYTE answers OK after a scanner step, and faults where the scanner does. -/
theorem exec_dbyte_answers (b : Byte) (s : State) : Answers s .ok (exec (.dbyte b) s) ∨
    ∃ f, scanByte b { s.working with dactive := true } s.pbuf = .error f ∧ exec (.dbyte b) s = .fault f := by
  cases hscan : scanByte b { s.working with dactive := true } s.pbuf with
  | ok r => exact .inl (.ok 0x00 rfl (exec_dbyte hscan) rfl)
  | error f =>
    have hexec : exec (.dbyte b) s = execDbyte b s := rfl
    exact .inr ⟨f, rfl, by rw [hexec, execDbyte, hscan]⟩

/-! ### Every command -/

/-- Every command but DBYTE answers, with the code that the table of causes gives it. -/
theorem exec_answers {i : Instr} (hi : ∀ b, i ≠ .dbyte b) (s : State) :
    Answers s (codeByCause (.cmd i) s) (exec i s) := by
  cases i with
  | nop => exact .ok 0x00 rfl (exec_nop s) rfl
  | srst m => exact .ok 0x00 rfl (exec_srst m s) rfl
  | bstart t =>
    by_cases hbusy : s.builder.bbusy = true
    · exact .error (if_pos hbusy) (exec_bstart_busy hbusy t)
    · exact .ok 0x00 (if_neg hbusy) (exec_bstart_idle (eq_false_of_ne_true hbusy) t) rfl
  | bbyte b =>
    by_cases hbusy : s.builder.bbusy = true
    · exact .ok 0x00 (if_pos hbusy) (exec_bbyte_busy hbusy b) rfl
    · exact .error (if_neg hbusy) (exec_bbyte_idle (eq_false_of_ne_true hbusy) b)
  | bend =>
    by_cases hbusy : s.builder.bbusy = true
    · exact .ok 0x00 (if_pos hbusy) (exec_bend_busy hbusy) rfl
    · exact .error (if_neg hbusy) (exec_bend_idle (eq_false_of_ne_true hbusy))
  | dbyte b => exact absurd rfl (hi b)
  | dend => exact .ok 0x00 rfl (exec_dend s) rfl
  | rdreg a =>
    cases hreg : regAt a with
    | none => exact .error (if_pos (regAt_eq_none.1 hreg)) (exec_rdreg_unmapped hreg s)
    | some r =>
      have hmapped : ¬ 0x10 ≤ a := mt regAt_eq_none.2 (by simp [hreg])
      exact .ok (regValue s r) (if_neg hmapped) (exec_rdreg_mapped hreg s) rfl
  | rdpay k =>
    by_cases hact : s.working.dactive = true
    · exact .error (if_pos hact) (exec_rdpay_busy hact k)
    · have hcode := codeByCause_rdpay hact k
      cases hpay : payloadAt k s with
      | none =>
        exact .error (hcode.trans (if_pos hpay)) (exec_rdpay_range (eq_false_of_ne_true hact) hpay)
      | some b =>
        exact .ok b (hcode.trans (if_neg (by simp [hpay])))
          (exec_rdpay_held (eq_false_of_ne_true hact) hpay) rfl

/-- Every word answers with the code that the table of causes gives it, unless it is a DBYTE in a working
state that the scanner faults in. -/
theorem runWord_answers (w : Word) (s : State) : Answers s (codeByCause (decodeCmd w) s) (runWord w s) ∨
    ∃ b f, scanByte b { s.working with dactive := true } s.pbuf = .error f ∧ runWord w s = .fault f := by
  unfold runWord
  cases decodeCmd w with
  | illegal why => exact .inl (.error rfl (illegalWord_next.2 rfl))
  | cmd i =>
    by_cases hi : ∀ b, i ≠ .dbyte b
    · exact .inl (exec_answers hi s)
    · obtain ⟨b, rfl⟩ := not_forall_not.1 hi
      exact (exec_dbyte_answers b s).imp_right fun hfault => ⟨b, hfault⟩

/-! ### The statements -/

/-- Settles O10: the invariant rules out the working states that DBYTE faults in. -/
theorem everyCommandCompletes : Obligations.EveryCommandCompletes := by
  unfold Obligations.EveryCommandCompletes
  intro s w rest hinv hp hr
  rw [step_command hp hr]
  rcases runWord_answers w { s with port := rest } with hans | ⟨b, f, hscan, -⟩
  · exact hans.exists_isResponse
  · exact absurd hscan (hinv.working.scanByte_ne_error b s.pbuf f)

/-- Settles O11: a step that answers a next state did not fault, so its word answered by the table. -/
theorem errorCodesFollowTheirCauses : Obligations.ErrorCodesFollowTheirCauses := by
  unfold Obligations.ErrorCodesFollowTheirCauses
  intro s t w rest hp hr hstep
  rw [step_command hp hr] at hstep
  rcases runWord_answers w { s with port := rest } with ⟨data, t', ho, hresp, herr⟩ | ⟨b, f, -, hfault⟩
  · obtain rfl := Host.Outcome.next.inj (ho.symm.trans hstep)
    rw [codeByCause_port] at hresp herr
    exact ⟨data, hresp, herr⟩
  · cases hfault.symm.trans hstep

end Sys2Proof.Machine

/-! ## Reset and hazards: the results during a decode (70_reset_and_hazards.md) -/

namespace Sys2Proof.Machine

/-- No row of the scanner's table writes DACTIVE (R83). -/
theorem scanByte_dactive {b : Byte} {w w' : Working} {m m' : Memory}
    (h : scanByte b w m = .ok (w', m')) : w'.dactive = w.dactive := by
  rcases scanByte_cases h with ⟨-, -, rfl⟩ | ⟨-, -, rfl⟩ | ⟨-, -, rfl⟩ | ⟨-, -, rfl⟩ |
    ⟨-, -, rfl⟩ | ⟨-, -, -, rfl⟩ | ⟨-, -, -, rfl⟩ | ⟨-, -, -, rfl⟩ | ⟨-, -, rfl⟩ <;> rfl

/-- Settles O21: DBYTE writes only the working state, PBUF and the responses, and the DACTIVE it sets
outlives the scanner step, so that RDPAY finds the decoder busy. -/
theorem dbyteKeepsResultsReadable : Obligations.DbyteKeepsResultsReadable := by
  unfold Obligations.DbyteKeepsResultsReadable
  intro b s t h
  obtain ⟨w, m, hscan, rfl⟩ := execDbyte_next.1 h
  have hactive : w.dactive = true := scanByte_dactive hscan
  exact ⟨rfl, rfl, rfl, rfl, hactive, exec_rdpay_busy hactive⟩

end Sys2Proof.Machine

/-! ## What a command can do, said once for the statements about every command -/

namespace Sys2Proof.Machine

theorem isResponse_ok (data : Byte) : isResponse (responseWord .ok data) := .inl ⟨data, rfl⟩

theorem isResponse_error {code : RespCode} (h : code ≠ .ok) : isResponse (responseWord code 0x00) :=
  .inr ⟨code, h, rfl⟩

/-- The next states that a command can answer: it only responds (a read command, or a builder command out of
sequence), or it changes what its rule says (40_builder.md, 41_decoder.md, 42_access.md) and responds OK. -/
inductive Effect (s : State) : Instr → State → Prop where
  | responds {i : Instr} {r : Word} (hi : isReadCommand i = true ∨ isBuilderCommand i = true)
      (hr : isResponse r) : Effect s i { s with responses := s.responses ++ [r] }
  | resets (m : BitVec 3) : Effect s (.srst m) { s with
      builder := if m.getLsbD 0 = true then .reset else s.builder
      working := if m.getLsbD 1 = true then .reset else s.working
      result := if m.getLsbD 2 = true then .reset else s.result
      obs := if m.getLsbD 2 = true then .reset else s.obs
      responses := s.responses ++ [0x0000] }
  | opens (x : Byte) (h : s.builder.bbusy = false) : Effect s (.bstart x) { s with
      tx := s.tx ++ [0xEF, 0xDD, x]
      builder := Builder.opened x
      responses := s.responses ++ [0x0000] }
  | accepts (b : Byte) (h : s.builder.bbusy = true) : Effect s (.bbyte b) { s with
      tx := s.tx ++ [b]
      builder := s.builder.accept b
      responses := s.responses ++ [0x0000] }
  | closes (h : s.builder.bbusy = true) : Effect s .bend { s with
      tx := s.tx ++ [s.builder.beven, s.builder.bodd]
      builder := s.builder.closed
      responses := s.responses ++ [0x0000] }
  | scans {b : Byte} {w : Working} {m : Memory}
      (h : scanByte b { s.working with dactive := true } s.pbuf = .ok (w, m)) : Effect s (.dbyte b) { s with
      working := w
      pbuf := m
      responses := s.responses ++ [0x0000] }
  | commits : Effect s .dend { s with
      result := commitResult s.rxCkFrom s.working s.pbuf (endOutcome s.working).1 (endOutcome s.working).2
      obs := commitObservables (endOutcome s.working).1 s.working s.pbuf s.obs
      working := .reset
      responses := s.responses ++ [0x0000] }

/-- A command that answers this next state has its effect. -/
theorem Effect.of_eq {s t u : State} {i : Instr} (hu : Effect s i u) (hexec : exec i s = .next u)
    (h : exec i s = .next t) : Effect s i t :=
  Host.Outcome.next.inj (hexec.symm.trans h) ▸ hu

/-- The read commands only respond, with one of the words of R58 and R59. -/
theorem exec_read_effect {i : Instr} {s t : State} (h : exec i s = .next t)
    (hi : isReadCommand i = true) : Effect s i t := by
  have hdbyte : ∀ b, i ≠ .dbyte b := by rintro b rfl; cases hi
  obtain ⟨r, hr⟩ := exec_read_response hi s
  obtain ⟨u, q, hu, hresp, hq⟩ := (exec_answers hdbyte s).exists_isResponse
  obtain rfl := Host.Outcome.next.inj ((hr s.responses).symm.trans hu)
  obtain rfl : r = q := by simpa using hresp
  exact (Effect.responds (.inl hi) hq).of_eq hu h

/-- A builder command out of sequence only responds SEQ. -/
theorem Effect.seq {s : State} {i : Instr} (hi : isBuilderCommand i = true) :
    Effect s i { s with responses := s.responses ++ [0x0200] } :=
  .responds (.inr hi) (isResponse_error (code := .seq) (by decide))

/-- Every next state that a command answers is one of its effects. -/
theorem exec_effect {i : Instr} {s t : State} (h : exec i s = .next t) : Effect s i t := by
  cases i with
  | nop | rdreg | rdpay => exact exec_read_effect h rfl
  | srst m => exact (Effect.resets m).of_eq (exec_srst m s) h
  | bstart x =>
    cases hbusy : s.builder.bbusy with
    | true => exact (Effect.seq rfl).of_eq (exec_bstart_busy hbusy x) h
    | false => exact (Effect.opens x hbusy).of_eq (exec_bstart_idle hbusy x) h
  | bbyte b =>
    cases hbusy : s.builder.bbusy with
    | true => exact (Effect.accepts b hbusy).of_eq (exec_bbyte_busy hbusy b) h
    | false => exact (Effect.seq rfl).of_eq (exec_bbyte_idle hbusy b) h
  | bend =>
    cases hbusy : s.builder.bbusy with
    | true => exact (Effect.closes hbusy).of_eq (exec_bend_busy hbusy) h
    | false => exact (Effect.seq rfl).of_eq (exec_bend_idle hbusy) h
  | dbyte b =>
    obtain ⟨w, m, hscan, rfl⟩ := execDbyte_next.1 h
    exact .scans hscan
  | dend => exact Effect.commits.of_eq (exec_dend s) h

namespace Effect

variable {s t : State} {i : Instr}

/-- A command returns one response, after the earlier ones. -/
theorem exists_response (h : Effect s i t) : ∃ r, t.responses = s.responses ++ [r] ∧ isResponse r := by
  cases h with
  | responds hi hr => exact ⟨_, rfl, hr⟩
  | resets | opens | accepts | closes | scans | commits => exact ⟨0x0000, rfl, isResponse_ok 0x00⟩

/-- No command changes the parameter, the reset level, the port or the counter of resets. -/
theorem frame (h : Effect s i t) :
    t.rxCkFrom = s.rxCkFrom ∧ t.resetIn = s.resetIn ∧ t.port = s.port ∧ t.resets = s.resets := by
  cases h <;> exact ⟨rfl, rfl, rfl, rfl⟩

/-- Only builder commands emit. -/
theorem exists_tx (h : Effect s i t) :
    ∃ bs, t.tx = s.tx ++ bs ∧ (bs ≠ [] → isBuilderCommand i = true) := by
  cases h with
  | opens | accepts | closes => exact ⟨_, rfl, fun _ => rfl⟩
  | responds | resets | scans | commits => exact ⟨[], (List.append_nil _).symm, fun h => absurd rfl h⟩

/-- Only DEND and SRST with mask bit 2 write the result registers and the observables. -/
theorem results_eq (h : Effect s i t) (hdend : i ≠ .dend) (hclear : clearsResults i = false) :
    t.result = s.result ∧ t.obs = s.obs := by
  cases h with
  | commits => exact absurd rfl hdend
  | resets m =>
    have hbit : ¬ m.getLsbD 2 = true := Bool.eq_false_iff.1 hclear
    exact ⟨if_neg hbit, if_neg hbit⟩
  | responds | opens | accepts | closes | scans => exact ⟨rfl, rfl⟩

end Effect

end Sys2Proof.Machine

/-! ## The invariant: it holds at reset and every step keeps it (10_state.md, 41_decoder.md R83, R94) -/

namespace Sys2Proof.Machine

/-! ### The decoder working state -/

/-- No checksum byte has been received. -/
def Working.NoChecksum (w : Working) : Prop := w.ckcnt = 0 ∧ w.wck0 = 0 ∧ w.wck1 = 0

/-- What the invariant says of the captured fields, read off the phase (41_decoder.md R83). -/
def Working.Captured (w : Working) : Prop :=
  match w.phase with
  | .hunt | .sync1 | .topic => (w.wtopic = 0 ∧ w.wsize = 0) ∧ (w.wtype = 0 ∧ w.wcnt = 0) ∧ w.NoChecksum
  | .size => w.wsize = 0 ∧ (w.wtype = 0 ∧ w.wcnt = 0) ∧ w.NoChecksum
  | .type => (w.wtype = 0 ∧ w.wcnt = 0) ∧ w.NoChecksum
  | .payload => w.wcnt < w.wsize ∧ w.NoChecksum
  | .cksum => w.wcnt = w.wsize ∧ (w.ckcnt < 2 ∧ (w.ckcnt = 0 → w.wck0 = 0)) ∧ w.wck1 = 0
  | .done => w.wcnt = w.wsize ∧ w.ckcnt = 2

/-- The invariant of the working state, phase by phase. -/
theorem Working.inv_iff {w : Working} :
    w.Inv ↔ (w.dactive = false → w = .reset) ∧ w.Captured := by
  constructor
  · rintro ⟨hidle, hheader, hsize, htype, hpayload, hend, hnock, hck, hdone, hsecond⟩
    refine ⟨hidle, ?_⟩
    cases hp : w.phase <;> simp_all [Captured, NoChecksum]
  · rintro ⟨hidle, hcap⟩
    refine ⟨hidle, ?_, ?_, ?_, ?_, ?_, ?_, ?_, ?_, ?_⟩
    all_goals cases hp : w.phase <;> simp_all [Captured, NoChecksum]

/-- A row of the scanner's table leads to what its next phase has captured (41_decoder.md R83). -/
theorem Working.Captured.scanByte {b : Byte} {w w' : Working} {m m' : Memory} (hw : w.Captured)
    (h : scanByte b w m = .ok (w', m')) : w'.Captured := by
  rcases scanByte_cases h with ⟨hp, -, rfl⟩ | ⟨hp, -, rfl⟩ | ⟨hp, -, rfl⟩ | ⟨hp, -, rfl⟩ |
    ⟨hp, -, rfl⟩ | ⟨hp, -, -, rfl⟩ | ⟨hp, hck, -, rfl⟩ | ⟨hp, hck, -, rfl⟩ | ⟨hp, -, rfl⟩
  all_goals simp only [Captured, hp] at hw
  -- HUNT, SYNC1
  · split_ifs <;> exact hw
  · split_ifs <;> exact hw
  -- TOPIC, SIZE
  · exact hw.imp_left And.right
  · exact hw.2
  -- TYPE, PAYLOAD
  · split_ifs with hsize
    · exact ⟨hsize, hw.2⟩
    · obtain ⟨-, hck, hck0, hck1⟩ := hw
      have hempty : 0 = w.wsize := by bv_omega
      exact ⟨hempty, ⟨by simp [hck], fun _ => hck0⟩, hck1⟩
  · obtain ⟨hcnt, hnock⟩ := hw
    split_ifs with hlast
    · obtain ⟨hck, hck0, hck1⟩ := hnock
      exact ⟨hlast, ⟨by simp [hck], fun _ => hck0⟩, hck1⟩
    · have hcnt' : w.wcnt + 1 < w.wsize := by bv_omega
      exact ⟨hcnt', hnock⟩
  -- CKSUM, DONE
  · obtain ⟨hcnt, -, hck1⟩ := hw
    simp only [Captured, hp]
    exact ⟨hcnt, ⟨by decide, nofun⟩, hck1⟩
  · exact ⟨hw.1, rfl⟩
  · simpa only [Captured, hp] using hw

/-- Setting DACTIVE and a scanner step keep the working state's invariant (41_decoder.md R84). -/
theorem Working.Inv.scanByte {b : Byte} {w w' : Working} {m m' : Memory} (hw : w.Inv)
    (h : scanByte b { w with dactive := true } m = .ok (w', m')) : w'.Inv := by
  have hcap : Working.Captured { w with dactive := true } := (Working.inv_iff.1 hw).2
  have hactive : w'.dactive = true := scanByte_dactive h
  exact Working.inv_iff.2 ⟨by simp [hactive], hcap.scanByte h⟩

/-- The empty buffer meets the invariant. -/
theorem Working.reset_inv : Working.Inv .reset :=
  Working.inv_iff.2 ⟨fun _ => rfl, by simp [Captured, NoChecksum, Working.reset]⟩

/-! ### The result registers -/

theorem ResultRegs.reset_inv : ResultRegs.Inv .reset := by
  constructor <;> decide

section Validator

variable {w : Working} {ck : Byte × Byte}

theorem ckStatus_ne_notChecked : ckStatus w ck ≠ .notChecked := by
  unfold ckStatus
  split_ifs <;> decide

theorem ckStatus_eq_absent : ckStatus w ck = .absent ↔ w.ckcnt < 2 := by
  unfold ckStatus
  split_ifs <;> simp_all

theorem ckStatus_eq_matched :
    ckStatus w ck = .matched ↔ ¬ w.ckcnt < 2 ∧ w.wck0 = ck.1 ∧ w.wck1 = ck.2 := by
  unfold ckStatus
  split_ifs <;> simp_all

theorem ckStatus_eq_mismatched :
    ckStatus w ck = .mismatched ↔ ¬ w.ckcnt < 2 ∧ ¬ (w.wck0 = ck.1 ∧ w.wck1 = ck.2) := by
  unfold ckStatus
  split_ifs <;> simp_all

end Validator

section Commit

variable {p : RxCkFrom} {w : Working} {m : Memory} {res : ResCode} {mc : MCause}

/-- A result that is no frame leaves the reset values but for RES and MCAUSE (41_decoder.md R94). -/
theorem commitResult_inv_of_not_frame (h : res.isFrame = false) (hcause : mc ≠ .noCause ↔ res = .malformed) :
    (commitResult p w m res mc).Inv := by
  rw [commitResult_of_not_frame h]
  exact {
    cause := hcause
    checked := by simp [ResultRegs.reset, h]
    noFrameView := fun _ => ⟨rfl, rfl, rfl, rfl, rfl, rfl, rfl⟩
    batteryFrame := by rintro rfl; cases h
    weightFrame := by rintro rfl; cases h
    unrecogFrame := by rintro rfl; cases h
    ckAbsent := nofun
    ckMatch := nofun
    ckMismatch := nofun }

/-- In CKSUM CKCNT is 0 or 1 and in DONE it is 2 (41_decoder.md R83): both checksum bytes have been received
when CKCNT is not below 2. -/
theorem Working.Inv.ckcnt_eq_two (hw : w.Inv) (hp : w.phase = .cksum ∨ w.phase = .done)
    (h : ¬ w.ckcnt < 2) : w.ckcnt = 2 :=
  hp.elim (fun hp => absurd (hw.inCksum hp).1 h) hw.atDone

/-- A frame result of the class that RES names (41_decoder.md R91, R94). -/
theorem commitResult_inv_of_frame (h : res.isFrame = true)
    (hck : ¬ w.ckcnt < 2 → w.ckcnt = 2)
    (hbattery : res = .battery → w.wtopic = 0x08)
    (hweight : res = .weight → w.wtopic = 0x0C ∧ w.wtype = 0x05 ∧ 6 ≤ w.wsize)
    (hunrecog : res = .unrecog → w.wtopic ≠ 0x08 ∧ ¬ (w.wtopic = 0x0C ∧ w.wtype = 0x05)) :
    (commitResult p w m res .noCause).Inv := by
  rw [commitResult_of_frame h]
  refine {
    cause := ⟨fun hc => absurd rfl hc, ?_⟩
    checked := iff_of_true ckStatus_ne_notChecked h
    noFrameView := fun hno => absurd (h.symm.trans hno) (by decide)
    batteryFrame := hbattery
    weightFrame := hweight
    unrecogFrame := hunrecog
    ckAbsent := fun habs => ?_
    ckMatch := fun hmatch => ?_
    ckMismatch := fun hmis => ?_ }
  · rintro rfl
    cases h
  · have hlt : w.ckcnt < 2 := ckStatus_eq_absent.1 habs
    exact if_neg (by bv_omega)
  · obtain ⟨hge, h0, h1⟩ := ckStatus_eq_matched.1 hmatch
    simp [hck hge, h0, h1]
  · obtain ⟨hge, hne⟩ := ckStatus_eq_mismatched.1 hmis
    simpa [hck hge, ← not_and_or] using hne

end Commit

/-- What DEND commits to the result registers meets their invariant. -/
theorem Working.Inv.commitResult {w : Working} (hw : w.Inv) (p : RxCkFrom) (m : Memory) :
    (commitResult p w m (endOutcome w).1 (endOutcome w).2).Inv := by
  rcases endOutcome_cases w with ⟨-, h⟩ | ⟨-, h⟩ | ⟨-, h⟩ | ⟨hp, h⟩
  · rw [h]
    exact commitResult_inv_of_not_frame rfl (by decide)
  · rw [h]
    exact commitResult_inv_of_not_frame rfl (by decide)
  · rw [h]
    exact commitResult_inv_of_not_frame rfl (by decide)
  · have hck := hw.ckcnt_eq_two hp
    rcases classify_cases w.wtopic w.wtype w.wsize with ⟨h8, hc⟩ | ⟨hC, h5, h6, hc⟩ | ⟨-, -, -, hc⟩ |
      ⟨h8, hC, hc⟩ <;> rw [h, hc]
    · exact commitResult_inv_of_frame rfl hck (fun _ => h8) nofun nofun
    · exact commitResult_inv_of_frame rfl hck nofun (fun _ => ⟨hC, h5, h6⟩) nofun
    · exact commitResult_inv_of_not_frame rfl (by decide)
    · exact commitResult_inv_of_frame rfl hck nofun nofun fun _ => ⟨h8, hC⟩

/-! ### The observables -/

theorem Observables.reset_inv : Observables.Inv .reset := by
  constructor <;> decide

/-- "WEXP takes only the values 0 to 4" (10_state.md R27). -/
theorem unitExp_le (u : Byte) : unitExp u ≤ 4 := by
  unfold unitExp
  split_ifs <;> decide

/-- What DEND commits to the observables keeps their invariant: it sets the flag of what it writes. -/
theorem Observables.Inv.commit {o : Observables} (ho : o.Inv) (res : ResCode) (w : Working) (m : Memory) :
    (commitObservables res w m o).Inv := by
  cases res with
  | battery => exact { ho with batteryUnset := nofun }
  | weight => exact { ho with exponent := unitExp_le _, weightUnset := nofun }
  | noResult | noFrame | malformed | unrecog => exact ho

/-! ### The state -/

/-- A BATTERY result of DEND leaves BATTERY written, from the type byte that DTYPE shows (41_decoder.md R88). -/
theorem commit_batteryHeld {p : RxCkFrom} {w : Working} {m : Memory} {mc : MCause} {o : Observables}
    {res : ResCode} (h : res = .battery) :
    (commitObservables res w m o).bvalid = true ∧
      (commitObservables res w m o).battery = (commitResult p w m res mc).dtype.extractLsb' 0 7 := by
  obtain rfl := h
  exact ⟨rfl, rfl⟩

/-- A WEIGHT result of DEND leaves the weight written (41_decoder.md R89). -/
theorem commit_weightHeld {w : Working} {m : Memory} {o : Observables} {res : ResCode} (h : res = .weight) :
    (commitObservables res w m o).wvalid = true := by
  obtain rfl := h
  rfl

/-- One more legal response. -/
theorem forall_isResponse_append {rs : List Word} {r : Word} (hrs : ∀ q ∈ rs, isResponse q)
    (hr : isResponse r) : ∀ q ∈ rs ++ [r], isResponse q :=
  List.forall_mem_append.2 ⟨hrs, List.forall_mem_singleton.2 hr⟩

namespace State.Inv

variable {s t : State}

theorem respond (hs : s.Inv) {r : Word} (hr : isResponse r) :
    State.Inv { s with responses := s.responses ++ [r] } :=
  { hs with responses := forall_isResponse_append hs.responses hr }

theorem setPort (hs : s.Inv) (p : List HostEvent) : State.Inv { s with port := p } :=
  { hs with }

/-- A command runs with the reset input released, and then the builder and the TX stream are free. -/
theorem setBuilder (hs : s.Inv) (hr : s.resetIn = false) (u : Builder) (tx : List Byte) :
    State.Inv { s with builder := u, tx := tx } :=
  { hs with inReset := fun h => absurd (h.symm.trans hr) (by decide) }

theorem setWorking (hs : s.Inv) (hr : s.resetIn = false) {w : Working} (hw : w.Inv) :
    State.Inv { s with working := w } :=
  { hs with working := hw, inReset := fun h => absurd (h.symm.trans hr) (by decide) }

theorem setPbuf (hs : s.Inv) {m : Memory} (hm : Memory.wf m) : State.Inv { s with pbuf := m } :=
  { hs with memory := hm }

theorem clearResults (hs : s.Inv) (hr : s.resetIn = false) :
    State.Inv { s with result := .reset, obs := .reset } :=
  { hs with
    result := ResultRegs.reset_inv
    observables := Observables.reset_inv
    batteryHeld := nofun
    weightHeld := nofun
    inReset := fun h => absurd (h.symm.trans hr) (by decide) }

/-- DEND's commit, before it clears the working state (41_decoder.md R86). -/
theorem commit (hs : s.Inv) (hr : s.resetIn = false) : State.Inv { s with
    result := commitResult s.rxCkFrom s.working s.pbuf (endOutcome s.working).1 (endOutcome s.working).2
    obs := commitObservables (endOutcome s.working).1 s.working s.pbuf s.obs } :=
  { hs with
    result := hs.working.commitResult _ _
    observables := hs.observables.commit _ _ _
    batteryHeld := fun h => commit_batteryHeld ((commitResult_res ..).symm.trans h)
    weightHeld := fun h => commit_weightHeld ((commitResult_res ..).symm.trans h)
    inReset := fun h => absurd (h.symm.trans hr) (by decide) }

/-- SRST, unit by unit (42_access.md R103). -/
theorem softReset (hs : s.Inv) (hr : s.resetIn = false) (m : BitVec 3) : State.Inv { s with
    builder := if m.getLsbD 0 = true then .reset else s.builder
    working := if m.getLsbD 1 = true then .reset else s.working
    result := if m.getLsbD 2 = true then .reset else s.result
    obs := if m.getLsbD 2 = true then .reset else s.obs } := by
  have hw : Working.Inv (if m.getLsbD 1 = true then .reset else s.working) := by
    split
    · exact Working.reset_inv
    · exact hs.working
  have hunits := (hs.setBuilder hr (if m.getLsbD 0 = true then .reset else s.builder) s.tx).setWorking hr hw
  by_cases hbit : m.getLsbD 2 = true
  · simp only [if_pos hbit]
    exact hunits.clearResults hr
  · simp only [if_neg hbit]
    exact hunits

/-- Every command keeps the invariant. -/
theorem effect (hs : s.Inv) (hr : s.resetIn = false) {i : Instr} (h : Effect s i t) : t.Inv := by
  cases h with
  | responds hi hresp => exact hs.respond hresp
  | resets m => exact (hs.softReset hr m).respond (isResponse_ok 0x00)
  | opens | accepts | closes => exact (hs.setBuilder hr _ _).respond (isResponse_ok 0x00)
  | scans hscan =>
    exact ((hs.setWorking hr (hs.working.scanByte hscan)).setPbuf (scanByte_wf hscan hs.memory)).respond
      (isResponse_ok 0x00)
  | commits => exact ((hs.commit hr).setWorking hr Working.reset_inv).respond (isResponse_ok 0x00)

/-- A change of the reset input keeps the invariant: asserted, every field has its reset value
(70_reset_and_hazards.md R123). -/
theorem setResetLevel (hs : s.Inv) (asserted : Bool) : (s.setResetLevel asserted).Inv := by
  cases asserted with
  | false => exact { hs with inReset := nofun }
  | true =>
    exact {
      memory := Memory.fill_wf _
      working := Working.reset_inv
      result := ResultRegs.reset_inv
      observables := Observables.reset_inv
      batteryHeld := nofun
      weightHeld := nofun
      inReset := fun _ => ⟨rfl, rfl, rfl, rfl⟩
      responses := hs.responses }

end State.Inv

/-! ### The statements -/

/-- Settles O50: a step takes an event off the port and then runs a command, turns an ILLEGAL word away or
takes a reset level. -/
theorem stepKeepsInvariant : Obligations.StepKeepsInvariant := by
  unfold Obligations.StepKeepsInvariant
  intro s t hs hstep
  rcases step_cases hstep with
    ⟨w, rest, i, -, hr, -, hexec⟩ | ⟨w, rest, why, -, -, -, rfl⟩ | ⟨a, rest, -, rfl⟩
  · exact (hs.setPort rest).effect hr (exec_effect hexec)
  · exact (hs.setPort rest).respond (isResponse_error (by decide))
  · exact (hs.setPort rest).setResetLevel a

/-- Settles O49, clause by clause. -/
theorem invariantHoldsAtReset : Obligations.InvariantHoldsAtReset where
  memory := Memory.wf_nil
  working := Working.reset_inv
  result := ResultRegs.reset_inv
  observables := Observables.reset_inv
  batteryHeld := nofun
  weightHeld := nofun
  inReset := nofun
  responses := nofun

end Sys2Proof.Machine

/-! ## Decode and encode (30_encoding.md R60, R65) -/

namespace Sys2Proof.Machine

/-- The decoder reads back every word that the encoder writes. -/
theorem decodeCmd_encode (i : Instr) : decodeCmd (encode i) = .cmd i := by
  cases i with
  | nop => exact decodeCmd_nop 0x00
  | srst m =>
    have harg : m.setWidth 8 = 0#5 ++ m := by
      revert m
      decide
    rw [encode, harg]
    exact decodeCmd_srst m
  | bstart t => exact decodeCmd_bstart t
  | bbyte b => exact decodeCmd_bbyte b
  | bend => exact decodeCmd_bend 0x00
  | dbyte b => exact decodeCmd_dbyte b
  | dend => decide
  | rdreg a => exact decodeCmd_rdreg a
  | rdpay k => exact decodeCmd_rdpay k

/-- An ARG with no reserved bit of SRST set is its mask, zero-extended (R57). -/
theorem setWidth_extract_of_and_F8 : ∀ arg : Byte, arg &&& 0xF8 = 0 → (arg.extractLsb' 0 3).setWidth 8 = arg := by
  decide

/-- Where all ARG bits are reserved, only ARG 0x00 passes the check (R61). -/
theorem checkReserved_all_eq_cmd {op arg : Byte} {i j : Instr} :
    checkReserved 0xFF op arg i = .cmd j ↔ arg = 0x00 ∧ i = j := by
  have hall : arg &&& 0xFF = arg := and_FF arg
  rw [checkReserved_eq_cmd, hall]

/-- The encoder writes back every word that decodes: OP is the row's, and ARG is the operand or 0. -/
theorem encode_of_decodeCmd {w : Word} {i : Instr} (h : decodeCmd w = .cmd i) : encode i = w := by
  obtain ⟨op, arg, rfl⟩ : ∃ op arg, w = cmd16 op arg := ⟨_, _, (cmd16_fields w).symm⟩
  simp only [decodeCmd, opField_cmd16, argField_cmd16] at h
  split_ifs at h with h00 h01 h10 h11 h12 h20 h21 h30 h31
  -- NOP, SRST
  · obtain ⟨harg, rfl⟩ := checkReserved_all_eq_cmd.1 h
    rw [h00, harg, encode]
  · obtain ⟨harg, rfl⟩ := checkReserved_eq_cmd.1 h
    rw [h01, encode, setWidth_extract_of_and_F8 arg harg]
  -- BSTART, BBYTE
  · cases h
    rw [h10, encode]
  · cases h
    rw [h11, encode]
  -- BEND
  · obtain ⟨harg, rfl⟩ := checkReserved_all_eq_cmd.1 h
    rw [h12, harg, encode]
  -- DBYTE
  · cases h
    rw [h20, encode]
  -- DEND
  · obtain ⟨harg, rfl⟩ := checkReserved_all_eq_cmd.1 h
    rw [h21, harg, encode]
  -- RDREG, RDPAY
  · cases h
    rw [h30, encode]
  · cases h
    rw [h31, encode]

/-- Settles O1: the encoder's words are the rows of the map, and a word that decodes is one of them. -/
theorem decodeEncodeAgree : Obligations.DecodeEncodeAgree :=
  ⟨decodeCmd_encode, fun _ _ h => encode_of_decodeCmd h⟩

/-- Settles O5, by running the decoder on each word. -/
theorem sampleWordsDecode : Obligations.SampleWordsDecode := by
  unfold Obligations.SampleWordsDecode
  decide

end Sys2Proof.Machine

/-! ## The assembler reads back what the disassembler prints (30_encoding.md R66, R69) -/

namespace Sys2Proof.Machine

/-! ### The pieces of a line -/

/-- The characters that end a piece of a line (R66). -/
abbrev separators : List Char := [';', ' ', '\t', '\r', ',', '[', ']', '|']

/-- Text without a separator. -/
abbrev Plain (t : Text) : Prop := ∀ c ∈ t, c ∉ separators

/-- Plain text goes on with the piece that is being read. -/
theorem tokensFrom_plain_append {t : Text} (h : Plain t) (rest cur : Text) :
    tokensFrom (t ++ rest) cur = tokensFrom rest (cur ++ t) := by
  induction t generalizing cur with
  | nil => simp
  | cons c t ih =>
    obtain ⟨hc, ht⟩ := List.forall_mem_cons.1 h
    simp only [List.mem_cons, List.not_mem_nil, or_false, not_or] at hc
    simp [tokensFrom, hc, ih ht]

/-- A plain word is one piece. -/
theorem tokensFrom_word {m : Text} (hm : Plain m) (hne : m ≠ []) : tokensFrom m [] = [m] := by
  have h := tokensFrom_plain_append hm [] []
  simpa [tokensFrom, flushToken, hne] using h

/-- A plain word, a blank and a plain operand are two pieces. -/
theorem tokensFrom_word_operand {m o : Text} (hm : Plain m) (hne : m ≠ []) (ho : Plain o) (hone : o ≠ []) :
    tokensFrom (m ++ ' ' :: o) [] = [m, o] := by
  rw [tokensFrom_plain_append hm]
  simp [tokensFrom, flushToken, hne, tokensFrom_word ho hone]

/-! ### Hexadecimal numbers -/

/-- The text of a hexadecimal number, from the values of its digits. -/
def hexText (ns : List Nat) : Text := '0' :: 'x' :: ns.map hexDigit

theorem hexByte_eq_hexText (b : Byte) : hexByte b = hexText [b.toNat / 16, b.toNat % 16] := rfl

/-- A printed digit is read back. -/
theorem digitValue_hexDigit : ∀ n < 16, digitValue (hexDigit n) = some n := by decide

/-- No separator is a digit. -/
theorem digitValue_separator : ∀ c ∈ separators, digitValue c = none := by
  intro c hc
  simp only [separators, List.mem_cons, List.not_mem_nil, or_false] at hc
  rcases hc with rfl | rfl | rfl | rfl | rfl | rfl | rfl | rfl <;> rfl

theorem hexDigit_not_separator {n : Nat} (h : n < 16) : hexDigit n ∉ separators := fun hsep => by
  cases (digitValue_hexDigit n h).symm.trans (digitValue_separator _ hsep)

theorem hexText_plain {ns : List Nat} (h : ∀ n ∈ ns, n < 16) : Plain (hexText ns) := by
  intro c hc
  simp only [hexText, List.mem_cons, List.mem_map] at hc
  rcases hc with rfl | rfl | ⟨n, hn, rfl⟩
  · decide
  · decide
  · exact hexDigit_not_separator (h n hn)

/-- Printed digits are read as the number they spell. -/
theorem readDigits_hexDigits {ns : List Nat} (h : ∀ n ∈ ns, n < 16) (acc : Nat) :
    readDigits 16 (ns.map hexDigit) acc = some (ns.foldl (fun a d => a * 16 + d) acc) := by
  induction ns generalizing acc with
  | nil => rfl
  | cons n ns ih =>
    obtain ⟨hn, hns⟩ := List.forall_mem_cons.1 h
    simp [readDigits, digitValue_hexDigit n hn, hn, ih hns]

theorem readNumber_hexText {n : Nat} {ns : List Nat} (h : ∀ k ∈ n :: ns, k < 16) :
    readNumber (hexText (n :: ns)) = some ((n :: ns).foldl (fun a d => a * 16 + d) 0) :=
  readDigits_hexDigits h 0

theorem nibbles_lt (b : Byte) : ∀ n ∈ [b.toNat / 16, b.toNat % 16], n < 16 := by
  have hb := b.isLt
  simp
  omega

theorem hexByte_plain (b : Byte) : Plain (hexByte b) := hexText_plain (nibbles_lt b)

theorem hexByte_ne_nil (b : Byte) : hexByte b ≠ [] := List.cons_ne_nil _ _

/-! ### Printed operands are read back -/

/-- A printed byte is read back where the operand's bound allows it. -/
theorem readBelow_hexByte {bound : Nat} {b : Byte} (h : b.toNat < bound) :
    readBelow bound (hexByte b) = some b.toNat := by
  have hval : b.toNat / 16 * 16 + b.toNat % 16 = b.toNat := Nat.div_add_mod' _ _
  simp [readBelow, hexByte_eq_hexText, readNumber_hexText (nibbles_lt b), hval, h]

theorem byteOperand_hexByte (b : Byte) : byteOperand (hexByte b) = some b := by
  simp [byteOperand, readBelow_hexByte b.isLt]

/-- No register's name begins like a hexadecimal number, so the operand is read as one. -/
theorem regOperand_hexByte (b : Byte) : regOperand (hexByte b) = some b := by
  have hnames : ∀ t ∈ regNames, t.head? ≠ some '0' := by decide
  have hno : regNames.idxOf? (hexByte b) = none :=
    List.idxOf?_eq_none_iff.2 fun hmem => hnames _ hmem rfl
  rw [regOperand, hno]
  exact byteOperand_hexByte b

theorem maskOperand_hexByte (m : BitVec 3) : maskOperand [hexByte (m.setWidth 8)] = some m := by
  have hval : (m.setWidth 8).toNat = m.toNat := by
    simp
    omega
  have hread : readBelow 8 (hexByte (m.setWidth 8)) = some m.toNat := by
    rw [readBelow_hexByte (hval.trans_lt m.isLt), hval]
  simp [maskOperand, hread]

/-! ### Printed lines are read back -/

/-- What stands for a mnemonic: a plain word, which `.word` (R69) is not. -/
abbrev MnemonicText (m : Text) : Prop := Plain m ∧ m ≠ [] ∧ m ≠ ".word".toList

/-- A line of a mnemonic and a printed byte. -/
theorem assembleLine_hexByte {m : Text} {b : Byte} {i : Instr} (hm : MnemonicText m)
    (h : assembleCommand m [hexByte b] = some [i]) :
    assembleLine (m ++ ' ' :: hexByte b) = some [encode i] := by
  obtain ⟨hplain, hne, hword⟩ := hm
  rw [assembleLine, tokensFrom_word_operand hplain hne (hexByte_plain b) (hexByte_ne_nil b), assembleTokens,
    if_neg hword, h]
  rfl

/-- A mnemonic of one operand makes its command of a printed operand that is read back. -/
theorem oneOperand_of_read {t : Text} {b : Byte} {read : Text → Option Byte} (h : read t = some b)
    (mk : Byte → Instr) : oneOperand [t] read mk = some [mk b] := by
  rw [oneOperand, h]
  rfl

/-- A printed command assembles to its word (R69). -/
theorem assembleLine_printInstr (i : Instr) : assembleLine (printInstr i) = some [encode i] := by
  cases i with
  | nop | bend | dend => decide
  | srst m =>
    have hcmd : assembleCommand "SRST".toList [hexByte (m.setWidth 8)] = some [.srst m] :=
      congrArg (Option.map fun k => [Instr.srst k]) (maskOperand_hexByte m)
    exact assembleLine_hexByte (by simp [MnemonicText, Plain]) hcmd
  | bstart t =>
    exact assembleLine_hexByte (m := "BSTART".toList) (by simp [MnemonicText, Plain])
      (oneOperand_of_read (byteOperand_hexByte t) .bstart)
  | bbyte b =>
    exact assembleLine_hexByte (m := "BBYTE".toList) (by simp [MnemonicText, Plain])
      (oneOperand_of_read (byteOperand_hexByte b) .bbyte)
  | dbyte b =>
    exact assembleLine_hexByte (m := "DBYTE".toList) (by simp [MnemonicText, Plain])
      (oneOperand_of_read (byteOperand_hexByte b) .dbyte)
  | rdreg a =>
    exact assembleLine_hexByte (m := "RDREG".toList) (by simp [MnemonicText, Plain])
      (oneOperand_of_read (regOperand_hexByte a) .rdreg)
  | rdpay k =>
    exact assembleLine_hexByte (m := "RDPAY".toList) (by simp [MnemonicText, Plain])
      (oneOperand_of_read (byteOperand_hexByte k) .rdpay)

/-- The four hexadecimal digits of a word, OP then ARG. -/
def wordDigits (w : Word) : List Nat :=
  [(opField w).toNat / 16, (opField w).toNat % 16, (argField w).toNat / 16, (argField w).toNat % 16]

theorem wordDigits_lt (w : Word) : ∀ n ∈ wordDigits w, n < 16 :=
  List.forall_mem_append.2 ⟨nibbles_lt (opField w), nibbles_lt (argField w)⟩

/-- A word's value is OP's times 256 and ARG's. -/
theorem toNat_eq_fields (w : Word) : w.toNat = (opField w).toNat * 256 + (argField w).toNat := by
  have h := w.isLt
  simp [opField, argField, Nat.shiftRight_eq_div_pow]
  omega

/-- `.word` takes any number of a word as it stands (R69; log entry 11). -/
theorem assembleLine_dot_word (w : Word) :
    assembleLine (".word ".toList ++ hexText (wordDigits w)) = some [w] := by
  have hval : (wordDigits w).foldl (fun a d => a * 16 + d) 0 = w.toNat := by
    simp only [wordDigits, List.foldl_cons, List.foldl_nil, toNat_eq_fields]
    omega
  have hread : readBelow 65536 (hexText (wordDigits w)) = some w.toNat := by
    rw [readBelow, wordDigits, readNumber_hexText (wordDigits_lt w), ← wordDigits, hval, Option.bind_some,
      if_pos w.isLt]
  have hpieces : tokensFrom (".word".toList ++ ' ' :: hexText (wordDigits w)) [] =
      [".word".toList, hexText (wordDigits w)] :=
    tokensFrom_word_operand (by simp [Plain]) (by simp) (hexText_plain (wordDigits_lt w)) (List.cons_ne_nil _ _)
  have hline : assembleLine (".word ".toList ++ hexText (wordDigits w)) =
      (readBelow 65536 (hexText (wordDigits w))).map fun n => [BitVec.ofNat 16 n] :=
    congrArg assembleTokens hpieces
  rw [hline, hread]
  simp

/-- Settles O6: a command's line is read back as its word, and `.word` as the number that stands there. -/
theorem assemblerReadsBackDisassembly : Obligations.AssemblerReadsBackDisassembly := by
  unfold Obligations.AssemblerReadsBackDisassembly
  intro w
  unfold disassemble
  split
  · next i hdec => rw [assembleLine_printInstr, encode_of_decodeCmd hdec]
  · exact assembleLine_dot_word w

end Sys2Proof.Machine

/-! ## The step, its refusals and the three interfaces (10_state.md R13, R15) -/

namespace Sys2Proof.Machine

/-- With nothing presented the core has no step (log entry 1). -/
theorem step_of_nothing {s : State} (hp : s.port = []) : step s = .refused .noCommand := by
  simp [step, nextEvent_eq_none.2 hp]

/-- A command presented while the reset input is asserted is not executed (70_reset_and_hazards.md R123; log
entry 3). -/
theorem step_command_in_reset {s : State} {w : Word} {rest : List HostEvent}
    (hp : s.port = .command w :: rest) (hr : s.resetIn = true) : step s = .refused .commandDuringReset := by
  have he : nextEvent s = some (.command w, { s with port := rest }) := nextEvent_eq_some.2 ⟨rest, hp, rfl⟩
  simp [step, he, hr]

/-- Settles O8: the two refusals of the step. -/
theorem stepIsRefusedWithoutACommand : Obligations.StepIsRefusedWithoutACommand :=
  ⟨fun _ hp => step_of_nothing hp, fun _ _ _ hp hr => step_command_in_reset hp hr⟩

/-- Settles O7: the step runs the word, and the word is the command's. -/
theorem stepRunsDecodedCommand : Obligations.StepRunsDecodedCommand := by
  unfold Obligations.StepRunsDecodedCommand
  intro s w rest i hp hr hdec
  rw [step_command hp hr, runWord, hdec]

/-- A change of the reset input takes the level and returns no response; asserted, it puts the core in its
reset state (10_state.md R15). -/
theorem setResetLevel_interfaces (s : State) (asserted : Bool) :
    (s.setResetLevel asserted).port = s.port ∧ (s.setResetLevel asserted).responses = s.responses ∧
      (s.setResetLevel asserted).resetIn = asserted ∧
      (asserted = true → (s.setResetLevel asserted).builder = .reset ∧
        (s.setResetLevel asserted).working = .reset ∧ (s.setResetLevel asserted).result = .reset ∧
        (s.setResetLevel asserted).obs = .reset) := by
  cases asserted with
  | false => exact ⟨rfl, rfl, rfl, nofun⟩
  | true => exact ⟨rfl, rfl, rfl, fun _ => ⟨rfl, rfl, rfl, rfl⟩⟩

/-- Settles O9: a command has its effect on both streams, an ILLEGAL word only responds, and a reset level
leaves both. -/
theorem interfacesAppendOnly : Obligations.InterfacesAppendOnly := by
  unfold Obligations.InterfacesAppendOnly
  intro s t hstep
  rcases step_cases hstep with
    ⟨w, rest, i, hp, -, hdec, hexec⟩ | ⟨w, rest, why, hp, -, -, rfl⟩ | ⟨a, rest, hp, rfl⟩
  · have heff := exec_effect hexec
    obtain ⟨bs, htx, hbuilder⟩ := heff.exists_tx
    obtain ⟨r, hresp, hr⟩ := heff.exists_response
    obtain ⟨-, -, hport, -⟩ := heff.frame
    exact ⟨⟨bs, htx, fun hbs => ⟨w, rest, i, hp, hdec, hbuilder hbs⟩⟩,
      .inl ⟨w, rest, r, hp, hport, hresp, hr⟩⟩
  · exact ⟨⟨[], (List.append_nil _).symm, fun h => absurd rfl h⟩,
      .inl ⟨w, rest, _, hp, rfl, rfl, isResponse_error (by decide)⟩⟩
  · obtain ⟨hport, hresp, hlevel, hreset⟩ := setResetLevel_interfaces { s with port := rest } a
    exact ⟨⟨[], by simp, fun h => absurd rfl h⟩, .inr ⟨a, rest, hp, hport, hresp, hlevel, hreset⟩⟩

/-! ### The reset input -/

/-- Settles O47: the step takes the level, refuses the command, and on release keeps what the invariant says
of a core in reset. -/
theorem resetInputResetsTheCore : Obligations.ResetInputResetsTheCore := by
  unfold Obligations.ResetInputResetsTheCore
  refine ⟨fun s rest hp => ?_, fun s t w rest hp hr hstep => ?_, fun s rest hs hr hp => ?_⟩
  · exact ⟨_, step_reset hp, rfl, rfl, rfl, rfl, rfl, rfl, rfl, rfl, rfl, Memory.fill_wf _⟩
  · cases (step_command_in_reset hp hr).symm.trans hstep
  · exact ⟨step_reset hp, hs.inReset hr⟩

/-- Settles O48: mask 7 selects every unit. -/
theorem fullSoftResetIsTheResetInput : Obligations.FullSoftResetIsTheResetInput := by
  unfold Obligations.FullSoftResetIsTheResetInput
  intro s rest hr
  have hsoft := stepRunsDecodedCommand { s with port := .command 0x0107 :: rest } 0x0107 rest (.srst 7) rfl hr
    (decodeCmd_srst 7)
  refine ⟨_, _, hsoft.trans (exec_srst 7 _), step_reset rfl, ?_⟩
  exact ⟨rfl, rfl, rfl, rfl, rfl, rfl, rfl, rfl, rfl, rfl⟩

/-! ### No step of the invariant faults -/

/-- What a step does in a state of the invariant: it answers a next state, or there is no command to
execute (60_exceptions.md R116). -/
theorem State.Inv.step_cases {s : State} (hs : s.Inv) : (∃ t, step s = .next t) ∨
    (step s = .refused .noCommand ∧ s.port = []) ∨
    (step s = .refused .commandDuringReset ∧ s.resetIn = true ∧ ∃ w rest, s.port = .command w :: rest) := by
  cases hp : s.port with
  | nil => exact .inr (.inl ⟨step_of_nothing hp, rfl⟩)
  | cons e rest =>
    cases e with
    | reset a => exact .inl ⟨_, step_reset hp⟩
    | command w =>
      cases hr : s.resetIn with
      | true => exact .inr (.inr ⟨step_command_in_reset hp hr, rfl, w, rest, rfl⟩)
      | false =>
        obtain ⟨t, r, hstep, -⟩ := everyCommandCompletes s w rest hs hp hr
        exact .inl ⟨t, hstep⟩

/-- Settles O51: neither outcome of a step without a next state is a fault. -/
theorem invariantStatesNeverFault : Obligations.InvariantStatesNeverFault := by
  unfold Obligations.InvariantStatesNeverFault
  intro s hs
  rcases hs.step_cases with ⟨t, h⟩ | ⟨h, hp⟩ | ⟨h, hr, hp⟩ <;> rw [h]
  · exact ⟨nofun, nofun⟩
  · refine ⟨nofun, ?_⟩
    rintro _ ⟨⟩
    exact .inl ⟨rfl, hp⟩
  · refine ⟨nofun, ?_⟩
    rintro _ ⟨⟩
    exact .inr ⟨rfl, hr, hp⟩

end Sys2Proof.Machine

/-! ## The alternating sums (20_memory.md R46, 40_builder.md R75) -/

namespace Sys2Proof.Machine

/-- Settles O15: the state that BSTART and the BBYTEs run to, of which this is the builder. -/
theorem accumulatorsHoldAlternatingSums : Obligations.AccumulatorsHoldAlternatingSums := by
  unfold Obligations.AccumulatorsHoldAlternatingSums
  exact fun t p s h => ⟨_, execAll_bstart_bbytes h t p, rfl⟩

/-- The sum of the bytes at the indices of one parity. -/
def paritySum (par : Nat) (p : List Byte) : Nat :=
  ((List.range p.length).map fun i => if i % 2 = par then (p.getD i 0).toNat else 0).sum

/-- A byte at the end counts to the sum of its index's parity. -/
theorem paritySum_append_singleton (par : Nat) (p : List Byte) (b : Byte) :
    paritySum par (p ++ [b]) = paritySum par p + if p.length % 2 = par then b.toNat else 0 := by
  have hinit : (List.range p.length).map (fun i => if i % 2 = par then ((p ++ [b]).getD i 0).toNat else 0) =
      (List.range p.length).map fun i => if i % 2 = par then (p.getD i 0).toNat else 0 := by
    refine List.map_congr_left fun i hi => ?_
    rw [List.getD_append _ _ _ _ (List.mem_range.1 hi)]
  simp only [paritySum, List.length_append, List.length_singleton, List.range_succ, List.map_append, hinit,
    List.sum_append]
  simp

/-- The recursive sums of R76 are the sums by index, one byte at the end at a time. -/
theorem sums_eq_paritySum (p : List Byte) : evenSum p = paritySum 0 p ∧ oddSum p = paritySum 1 p := by
  induction p using List.reverseRecOn with
  | nil => exact ⟨rfl, rfl⟩
  | append_singleton p b ih =>
    obtain ⟨heven, hodd⟩ := sums_append_singleton p b
    rw [heven, hodd, paritySum_append_singleton, paritySum_append_singleton, ih.1, ih.2]
    rcases Nat.mod_two_eq_zero_or_one p.length with hpar | hpar <;> simp [hpar]

/-- Settles O17, the sums by index being `paritySum`. -/
theorem alternatingSumsByIndex : Obligations.AlternatingSumsByIndex := sums_eq_paritySum

end Sys2Proof.Machine

/-! ## The decoder's remaining rows: where DBYTE stores, where it faults, the first sync (41_decoder.md) -/

namespace Sys2Proof.Machine

/-- Settles O19: below WSIZE the write index is at most 254, and the payload RAM is written there alone. -/
theorem dbyteStoresAtPayloadCount : Obligations.DbyteStoresAtPayloadCount := by
  unfold Obligations.DbyteStoresAtPayloadCount
  intro b s hm hp hcnt
  have hindex : s.working.wcnt.toNat ≤ 254 := by bv_omega
  exact ⟨_, exec_dbyte (scanByte_payload b _ hp hcnt),
    Memory.write_wf hm (Nat.lt_succ_of_le hindex), hindex, Memory.read_write_same hm,
    fun i hi => Memory.read_write_other hi⟩

/-- DBYTE faults where the scanner does. -/
theorem exec_dbyte_fault {b : Byte} {s : State} {f : Fault}
    (h : scanByte b { s.working with dactive := true } s.pbuf = .error f) :
    exec (.dbyte b) s = .fault f := by
  have hexec : exec (.dbyte b) s = execDbyte b s := rfl
  rw [hexec, execDbyte, h]

/-- Settles O20: PBUF has no entry 255, and no row of the table takes CKCNT 2 or 3 in CKSUM. -/
theorem dbyteFaultsOutsideTheTable : Obligations.DbyteFaultsOutsideTheTable := by
  unfold Obligations.DbyteFaultsOutsideTheTable
  refine fun b s => ⟨fun hp hcnt => exec_dbyte_fault ?_, fun hp hck => exec_dbyte_fault ?_⟩
  · simp [scanByte, hp, hcnt, pbufEntries]
  · rcases hck with hck | hck <;> simp [scanByte, hp, hck]

/-- Settles O28: a unit byte of 5 or more is none of the four that have an exponent. -/
theorem unitExponentTable : Obligations.UnitExponentTable := by
  unfold Obligations.UnitExponentTable
  refine ⟨rfl, rfl, rfl, rfl, rfl, fun u hu => ?_⟩
  obtain ⟨h1, h2, h3, h4⟩ : u ≠ 0x01 ∧ u ≠ 0x02 ∧ u ≠ 0x03 ∧ u ≠ 0x04 := by bv_omega
  rw [unitExp, if_neg h1, if_neg h2, if_neg h3, if_neg h4]

/-- Settles O33: what `findSync` finds, and when it finds nothing. -/
theorem referenceSyncIsFirst : Obligations.ReferenceSyncIsFirst :=
  fun _ => ⟨fun _ => findSync_eq_some_iff, findSync_eq_none_iff⟩

/-- Settles O39: each list of numbers is the table's. -/
theorem fieldEncodings : Obligations.FieldEncodings := ⟨rfl, rfl, rfl, rfl⟩

end Sys2Proof.Machine

/-! ## Who writes what (10_state.md R19, R20, R32, R33, 41_decoder.md R95) -/

namespace Sys2Proof.Machine

/-! ### What a command writes of each unit -/

namespace Effect

variable {s t : State} {i : Instr}

/-- The builder after a command: as before, reset by SRST mask bit 0, or written by a builder command. -/
theorem builder_cases (h : Effect s i t) : t.builder = s.builder ∨
    ((∃ m : BitVec 3, i = .srst m ∧ m.getLsbD 0 = true) ∧ t.builder = .reset) ∨
    (∃ x, i = .bstart x ∧ t.builder = Builder.opened x) ∨
    (∃ b, i = .bbyte b ∧ t.builder = s.builder.accept b) ∨
    (i = .bend ∧ t.builder = s.builder.closed) := by
  cases h with
  | resets m =>
    by_cases hbit : m.getLsbD 0 = true
    · exact .inr (.inl ⟨⟨m, rfl, hbit⟩, if_pos hbit⟩)
    · exact .inl (if_neg hbit)
  | opens x => exact .inr (.inr (.inl ⟨x, rfl, rfl⟩))
  | accepts b => exact .inr (.inr (.inr (.inl ⟨b, rfl, rfl⟩)))
  | closes => exact .inr (.inr (.inr (.inr ⟨rfl, rfl⟩)))
  | responds | scans | commits => exact .inl rfl

/-- The working state after a command: as before, reset by DEND or SRST mask bit 1, or active after DBYTE. -/
theorem working_cases (h : Effect s i t) : t.working = s.working ∨
    ((i = .dend ∨ ∃ m : BitVec 3, i = .srst m ∧ m.getLsbD 1 = true) ∧ t.working = .reset) ∨
    ((∃ b, i = .dbyte b) ∧ t.working.dactive = true) := by
  cases h with
  | resets m =>
    by_cases hbit : m.getLsbD 1 = true
    · exact .inr (.inl ⟨.inr ⟨m, rfl, hbit⟩, if_pos hbit⟩)
    · exact .inl (if_neg hbit)
  | scans hscan => exact .inr (.inr ⟨⟨_, rfl⟩, scanByte_dactive hscan⟩)
  | commits => exact .inr (.inl ⟨.inl rfl, rfl⟩)
  | responds | opens | accepts | closes => exact .inl rfl

/-- The observables after a command: as before, cleared by SRST mask bit 2, or committed by DEND with the
result that RES then shows. -/
theorem obs_cases (h : Effect s i t) : t.obs = s.obs ∨ (clearsResults i = true ∧ t.obs = .reset) ∨
    (i = .dend ∧ t.obs = commitObservables t.result.res s.working s.pbuf s.obs) := by
  cases h with
  | resets m =>
    by_cases hbit : m.getLsbD 2 = true
    · exact .inr (.inl ⟨hbit, if_pos hbit⟩)
    · exact .inl (if_neg hbit)
  | commits => exact .inr (.inr ⟨rfl, by simp⟩)
  | responds | opens | accepts | closes | scans => exact .inl rfl

/-- PBUF after a command: as before, or written by DBYTE in PAYLOAD. -/
theorem pbuf_cases (h : Effect s i t) :
    t.pbuf = s.pbuf ∨ (s.working.phase = .payload ∧ ∃ b, i = .dbyte b) := by
  cases h with
  | scans hscan =>
    rcases scanByte_cases hscan with ⟨-, hm, -⟩ | ⟨-, hm, -⟩ | ⟨-, hm, -⟩ | ⟨-, hm, -⟩ | ⟨-, hm, -⟩ |
      ⟨hp, -, -, -⟩ | ⟨-, -, hm, -⟩ | ⟨-, -, hm, -⟩ | ⟨-, hm, -⟩
    case inr.inr.inr.inr.inr.inl => exact .inr ⟨hp, _, rfl⟩
    all_goals exact .inl hm
  | responds | resets | opens | accepts | closes | commits => exact .inl rfl

end Effect

/-! ### The observables: which fields a result writes (41_decoder.md R88, R89, R95) -/

section CommitObservables

variable {res : ResCode} (w : Working) (m : Memory) (o : Observables)

theorem commitObservables_of_other (hbattery : res ≠ .battery) (hweight : res ≠ .weight) :
    commitObservables res w m o = o := by
  cases res with
  | battery => exact absurd rfl hbattery
  | weight => exact absurd rfl hweight
  | noResult | noFrame | malformed | unrecog => rfl

/-- Only a BATTERY result writes BVALID, and it sets it. -/
theorem commitObservables_bvalid :
    (commitObservables res w m o).bvalid = if res = .battery then true else o.bvalid := by
  cases res <;> rfl

/-- Only a WEIGHT result writes WVALID, and it sets it. -/
theorem commitObservables_wvalid :
    (commitObservables res w m o).wvalid = if res = .weight then true else o.wvalid := by
  cases res <;> rfl

end CommitObservables

/-- Settles O29: only DEND and SRST mask bit 2 write the observables, and DEND by the result it commits. -/
theorem observablesWrittenOnlyByTheirResult : Obligations.ObservablesWrittenOnlyByTheirResult := by
  unfold Obligations.ObservablesWrittenOnlyByTheirResult
  intro i s t h
  refine ⟨fun hdend hclear => ((exec_effect h).results_eq hdend hclear).2, ?_⟩
  rintro rfl
  obtain rfl := Host.Outcome.next.inj ((exec_dend s).symm.trans h)
  simp only [commitResult_res]
  exact ⟨trivial, commitObservables_of_other _ _ _, fun hres => by simp [hres, commitObservables, commitBattery],
    fun hres => by simp [hres, commitObservables, commitWeight]⟩

/-- Settles O43, with the observables' statement: the same two commands write both. -/
theorem resultRegistersWriters : Obligations.ResultRegistersWriters := by
  unfold Obligations.ResultRegistersWriters
  exact fun i s t h hdend hclear => ((exec_effect h).results_eq hdend hclear).1

/-- Settles O44: PBUF by what a command writes of it, the other fields by the frame of every command. -/
theorem payloadRamWriters : Obligations.PayloadRamWriters := by
  unfold Obligations.PayloadRamWriters
  exact fun i s t h => ⟨(exec_effect h).pbuf_cases.resolve_left, (exec_effect h).frame⟩

/-! ### The flags of STATUS (R33) -/

section Flags

variable {s t : State} {i : Instr}

theorem Builder.accept_bbusy (b : Byte) (u : Builder) : (u.accept b).bbusy = u.bbusy := by
  cases hpar : u.bpar with
  | false => rw [Builder.accept_even hpar]
  | true => rw [Builder.accept_odd hpar]

theorem bbusy_set (h : Effect s i t) (h0 : s.builder.bbusy = false) (h1 : t.builder.bbusy = true) :
    ∃ x, i = .bstart x := by
  rcases h.builder_cases with hb | ⟨-, hb⟩ | ⟨x, hi, -⟩ | ⟨b, -, hb⟩ | ⟨-, hb⟩
  case inr.inr.inl => exact ⟨x, hi⟩
  all_goals simp [hb, h0, Builder.reset, Builder.accept_bbusy, Builder.closed] at h1

theorem bbusy_cleared (h : Effect s i t) (h1 : s.builder.bbusy = true) (h0 : t.builder.bbusy = false) :
    i = .bend ∨ ∃ m : BitVec 3, i = .srst m ∧ m.getLsbD 0 = true := by
  rcases h.builder_cases with hb | ⟨hi, -⟩ | ⟨x, -, hb⟩ | ⟨b, -, hb⟩ | ⟨hi, -⟩
  case inr.inl => exact .inr hi
  case inr.inr.inr.inr => exact .inl hi
  all_goals simp [hb, h1, Builder.opened, Builder.accept_bbusy] at h0

theorem bpar_set (h : Effect s i t) (h0 : s.builder.bpar = false) (h1 : t.builder.bpar = true) :
    ∃ x, i = .bbyte x := by
  rcases h.builder_cases with hb | ⟨-, hb⟩ | ⟨x, -, hb⟩ | ⟨b, hi, -⟩ | ⟨-, hb⟩
  case inr.inr.inr.inl => exact ⟨b, hi⟩
  all_goals simp [hb, h0, Builder.reset, Builder.opened, Builder.closed] at h1

theorem bpar_cleared (h : Effect s i t) (h1 : s.builder.bpar = true) (h0 : t.builder.bpar = false) :
    (∃ x, i = .bbyte x) ∨ (∃ x, i = .bstart x) ∨ ∃ m : BitVec 3, i = .srst m ∧ m.getLsbD 0 = true := by
  rcases h.builder_cases with hb | ⟨hi, -⟩ | ⟨x, hi, -⟩ | ⟨b, hi, -⟩ | ⟨-, hb⟩
  case inr.inl => exact .inr (.inr hi)
  case inr.inr.inl => exact .inr (.inl ⟨x, hi⟩)
  case inr.inr.inr.inl => exact .inl ⟨b, hi⟩
  all_goals simp [hb, h1, Builder.closed] at h0

theorem dactive_set (h : Effect s i t) (h0 : s.working.dactive = false) (h1 : t.working.dactive = true) :
    ∃ x, i = .dbyte x := by
  rcases h.working_cases with hw | ⟨-, hw⟩ | ⟨hi, -⟩
  case inr.inr => exact hi
  all_goals simp [hw, h0, Working.reset] at h1

theorem dactive_cleared (h : Effect s i t) (h1 : s.working.dactive = true) (h0 : t.working.dactive = false) :
    i = .dend ∨ ∃ m : BitVec 3, i = .srst m ∧ m.getLsbD 1 = true := by
  rcases h.working_cases with hw | ⟨hi, -⟩ | ⟨-, hact⟩
  case inr.inl => exact hi
  · simp [hw, h1] at h0
  · simp [hact] at h0

theorem phase_changed (h : Effect s i t) (hne : t.working.phase ≠ s.working.phase) :
    (∃ x, i = .dbyte x) ∨
      (t.working.phase = .hunt ∧ (i = .dend ∨ ∃ m : BitVec 3, i = .srst m ∧ m.getLsbD 1 = true)) := by
  rcases h.working_cases with hw | ⟨hi, hw⟩ | ⟨hi, -⟩
  · exact absurd (congrArg Working.phase hw) hne
  · exact .inr ⟨congrArg Working.phase hw, hi⟩
  · exact .inl hi

theorem bvalid_set (h : Effect s i t) (h0 : s.obs.bvalid = false) (h1 : t.obs.bvalid = true) :
    i = .dend ∧ t.result.res = .battery := by
  rcases h.obs_cases with ho | ⟨-, ho⟩ | ⟨hi, ho⟩
  case inr.inr => exact ⟨hi, by simpa [ho, commitObservables_bvalid, h0] using h1⟩
  all_goals simp [ho, h0, Observables.reset] at h1

theorem bvalid_cleared (h : Effect s i t) (h1 : s.obs.bvalid = true) (h0 : t.obs.bvalid = false) :
    clearsResults i = true := by
  rcases h.obs_cases with ho | ⟨hi, -⟩ | ⟨-, ho⟩
  case inr.inl => exact hi
  all_goals simp [ho, h1, commitObservables_bvalid] at h0

theorem wvalid_set (h : Effect s i t) (h0 : s.obs.wvalid = false) (h1 : t.obs.wvalid = true) :
    i = .dend ∧ t.result.res = .weight := by
  rcases h.obs_cases with ho | ⟨-, ho⟩ | ⟨hi, ho⟩
  case inr.inr => exact ⟨hi, by simpa [ho, commitObservables_wvalid, h0] using h1⟩
  all_goals simp [ho, h0, Observables.reset] at h1

theorem wvalid_cleared (h : Effect s i t) (h1 : s.obs.wvalid = true) (h0 : t.obs.wvalid = false) :
    clearsResults i = true := by
  rcases h.obs_cases with ho | ⟨hi, -⟩ | ⟨-, ho⟩
  case inr.inl => exact hi
  all_goals simp [ho, h1, commitObservables_wvalid] at h0

end Flags

/-- Settles O42, flag by flag. -/
theorem flagWriters : Obligations.FlagWriters := by
  unfold Obligations.FlagWriters
  intro i s t hexec
  have h := exec_effect hexec
  exact ⟨bbusy_set h, bbusy_cleared h, bpar_set h, bpar_cleared h, dactive_set h, dactive_cleared h,
    phase_changed h, bvalid_set h, bvalid_cleared h, wvalid_set h, wvalid_cleared h⟩

end Sys2Proof.Machine

/-! ## Independent units, and outcomes that do not see RX_CK_FROM (10_state.md R32, 00_scope.md R6) -/

namespace Sys2Proof.Machine

/-! ### What a command of one unit reads -/

/-- A builder command reads the builder only: from every state with the same builder it completes, writes
the same builder, emits the same bytes and gives the same response. -/
theorem exec_builder {i : Instr} (hi : isBuilderCommand i = true) (s : State) :
    ∃ u bs r, ∀ s', s'.builder = s.builder → exec i s' =
      .next { s' with builder := u, tx := s'.tx ++ bs, responses := s'.responses ++ [r] } := by
  -- a SEQ response writes the builder that is there and emits nothing
  have hseq {s' : State} (hs' : s'.builder = s.builder)
      (h : exec i s' = .next { s' with responses := s'.responses ++ [0x0200] }) : exec i s' = .next
        { s' with builder := s.builder, tx := s'.tx ++ [], responses := s'.responses ++ [0x0200] } := by
    rw [h, ← hs', List.append_nil]
  cases i with
  | bstart x =>
    cases hbusy : s.builder.bbusy with
    | true => exact ⟨_, [], 0x0200, fun s' hs' => hseq hs' (exec_bstart_busy (hs' ▸ hbusy) x)⟩
    | false => exact ⟨_, _, _, fun s' hs' => exec_bstart_idle (hs' ▸ hbusy) x⟩
  | bbyte b =>
    cases hbusy : s.builder.bbusy with
    | true => exact ⟨_, _, _, fun s' hs' => hs' ▸ exec_bbyte_busy (hs' ▸ hbusy) b⟩
    | false => exact ⟨_, [], 0x0200, fun s' hs' => hseq hs' (exec_bbyte_idle (hs' ▸ hbusy) b)⟩
  | bend =>
    cases hbusy : s.builder.bbusy with
    | true => exact ⟨_, _, _, fun s' hs' => hs' ▸ exec_bend_busy (hs' ▸ hbusy)⟩
    | false => exact ⟨_, [], 0x0200, fun s' hs' => hseq hs' (exec_bend_idle (hs' ▸ hbusy))⟩
  | nop | srst | dbyte | dend | rdreg | rdpay => cases hi

/-- DBYTE reads the working state and PBUF only. -/
theorem exec_dbyte_of_alike {b : Byte} {s t : State} (h : exec (.dbyte b) s = .next t) {s' : State}
    (hworking : s'.working = s.working) (hpbuf : s'.pbuf = s.pbuf) : exec (.dbyte b) s' =
      .next { s' with working := t.working, pbuf := t.pbuf, responses := s'.responses ++ [0x0000] } :=
  exec_dbyte (by rw [hworking, hpbuf]; exact scanByte_of_exec_dbyte h)

/-- The two states have the same decoder, and the same RX_CK_FROM that DEND reads. -/
structure SameDecoder (s' s : State) : Prop where
  working : s'.working = s.working
  pbuf : s'.pbuf = s.pbuf
  result : s'.result = s.result
  obs : s'.obs = s.obs
  rxCkFrom : s'.rxCkFrom = s.rxCkFrom

/-- A decoder command reads the decoder and RX_CK_FROM only: from every state where they are the same it
completes and writes the same decoder. -/
theorem exec_decoder {i : Instr} {s t : State} (hi : isDecoderCommand i = true) (h : exec i s = .next t)
    {s' : State} (hs' : SameDecoder s' s) : exec i s' = .next { s' with
      working := t.working, pbuf := t.pbuf, result := t.result, obs := t.obs
      responses := s'.responses ++ [0x0000] } := by
  cases i with
  | dbyte b =>
    obtain ⟨hresult, hobs, -⟩ := dbyteKeepsResultsReadable b s t h
    rw [exec_dbyte_of_alike h hs'.working hs'.pbuf, hresult, hobs, ← hs'.result, ← hs'.obs]
  | dend =>
    obtain rfl := Host.Outcome.next.inj ((exec_dend s).symm.trans h)
    rw [exec_dend, hs'.working, hs'.pbuf, hs'.obs, hs'.rxCkFrom]
  | nop | srst | bstart | bbyte | bend | rdreg | rdpay => cases hi

/-! ### The statements of R32 -/

/-- What a builder command writes. -/
theorem exec_builder_frame {i : Instr} {s t : State} (hi : isBuilderCommand i = true)
    (h : exec i s = .next t) :
    t = { s with builder := t.builder, tx := t.tx, responses := t.responses } := by
  obtain ⟨u, bs, r, hexec⟩ := exec_builder hi s
  obtain rfl := Host.Outcome.next.inj ((hexec s rfl).symm.trans h)
  rfl

/-- What a decoder command writes. -/
theorem exec_decoder_frame {i : Instr} {s t : State} (hi : isDecoderCommand i = true)
    (h : exec i s = .next t) :
    t = { s with working := t.working, pbuf := t.pbuf, result := t.result, obs := t.obs,
                 responses := t.responses } := by
  have ht := Host.Outcome.next.inj (h.symm.trans (exec_decoder hi h ⟨rfl, rfl, rfl, rfl, rfl⟩))
  have hresp : t.responses = s.responses ++ [0x0000] := congrArg State.responses ht
  rw [hresp]
  exact ht

/-- A builder command and a decoder command, in the other order: each reads what the other leaves alone. -/
theorem exec_builder_decoder_comm {b d : Instr} {s s1 t : State} (hb : isBuilderCommand b = true)
    (hd : isDecoderCommand d = true) (h1 : exec b s = .next s1) (h2 : exec d s1 = .next t) :
    ∃ s2 t', exec d s = .next s2 ∧ exec b s2 = .next t' ∧ { t' with responses := t.responses } = t := by
  obtain ⟨u, bs, r, hbuilder⟩ := exec_builder hb s
  obtain rfl := Host.Outcome.next.inj ((hbuilder s rfl).symm.trans h1)
  have hdecoder := exec_decoder hd h2 (s' := s) ⟨rfl, rfl, rfl, rfl, rfl⟩
  exact ⟨_, _, hdecoder, hbuilder _ rfl, (exec_decoder_frame hd h2).symm⟩

/-- Settles O45: what each unit's commands write and read, and so their order does not matter. -/
theorem unitsAreIndependent : Obligations.UnitsAreIndependent := by
  unfold Obligations.UnitsAreIndependent
  refine ⟨fun i s t hi h => ⟨exec_builder_frame hi h, ?_⟩, fun i s t hi h => ⟨exec_decoder_frame hi h, ?_⟩,
    fun b d s s1 t => exec_builder_decoder_comm⟩
  · intro s' t' hs' h'
    obtain ⟨u, bs, r, hexec⟩ := exec_builder hi s
    obtain rfl := Host.Outcome.next.inj ((hexec s rfl).symm.trans h)
    obtain rfl := Host.Outcome.next.inj ((hexec s' hs').symm.trans h')
    exact ⟨rfl, bs, r, rfl, rfl, rfl, rfl⟩
  · intro s' t' hworking hpbuf hresult hobs hck h'
    have hexec := exec_decoder hi h ⟨hworking, hpbuf, hresult, hobs, hck⟩
    obtain rfl := Host.Outcome.next.inj (hexec.symm.trans h')
    exact ⟨rfl, rfl, rfl, rfl⟩

/-! ### RX_CK_FROM -/

/-- DEND's result registers for two values of RX_CK_FROM differ at most in CKSTAT, DCKE and DCKO (R97, R98). -/
theorem commitResult_sameButChecksum (p q : RxCkFrom) (w : Working) (m : Memory) (res : ResCode)
    (mc : MCause) : (commitResult p w m res mc).sameButChecksum (commitResult q w m res mc) := by
  cases hres : res.isFrame with
  | true =>
    rw [commitResult_of_frame hres, commitResult_of_frame hres]
    rfl
  | false =>
    rw [commitResult_of_not_frame hres, commitResult_of_not_frame hres]
    rfl

namespace SameButValidator

variable {s t s' : State}

/-- Responses may show what the validator computed, so they are free. -/
theorem addResponses (h : SameButValidator s t) (rs qs : List Word) :
    SameButValidator { s with responses := rs } { t with responses := qs } :=
  { h with }

theorem setPort (h : SameButValidator s t) (p : List HostEvent) :
    SameButValidator { s with port := p } { t with port := p } :=
  { h with port := rfl }

theorem setResetLevel (h : SameButValidator s t) (asserted : Bool) :
    SameButValidator (s.setResetLevel asserted) (t.setResetLevel asserted) := by
  cases asserted with
  | false => exact { h with resetIn := rfl }
  | true =>
    exact { h with
      builder := rfl, working := rfl, result := rfl, obs := rfl, resetIn := rfl
      pbuf := congrArg (fun n => Memory.fill (Config.pbufAfterReset n)) h.resets
      resets := congrArg (· + 1) h.resets }

theorem read_alike (h : SameButValidator s t) {i : Instr} (hi : isReadCommand i = true)
    (hexec : exec i s = .next s') : ∃ t', exec i t = .next t' ∧ SameButValidator s' t' := by
  obtain ⟨r, hr⟩ := exec_read_response hi s
  obtain ⟨q, hq⟩ := exec_read_response hi t
  obtain rfl := Host.Outcome.next.inj ((hr s.responses).symm.trans hexec)
  exact ⟨_, hq t.responses, h.addResponses _ _⟩

theorem builder_alike (h : SameButValidator s t) {i : Instr} (hi : isBuilderCommand i = true)
    (hexec : exec i s = .next s') : ∃ t', exec i t = .next t' ∧ SameButValidator s' t' := by
  obtain ⟨u, bs, r, hbuilder⟩ := exec_builder hi s
  obtain rfl := Host.Outcome.next.inj ((hbuilder s rfl).symm.trans hexec)
  exact ⟨_, hbuilder t h.builder.symm, { h with builder := rfl, tx := congrArg (· ++ bs) h.tx }⟩

/-- SRST, unit by unit. -/
theorem softReset (h : SameButValidator s t) (m : BitVec 3) : SameButValidator
    { s with
      builder := if m.getLsbD 0 = true then .reset else s.builder
      working := if m.getLsbD 1 = true then .reset else s.working
      result := if m.getLsbD 2 = true then .reset else s.result
      obs := if m.getLsbD 2 = true then .reset else s.obs
      responses := s.responses ++ [0x0000] }
    { t with
      builder := if m.getLsbD 0 = true then .reset else t.builder
      working := if m.getLsbD 1 = true then .reset else t.working
      result := if m.getLsbD 2 = true then .reset else t.result
      obs := if m.getLsbD 2 = true then .reset else t.obs
      responses := t.responses ++ [0x0000] } := by
  have hresult : ResultRegs.sameButChecksum (if m.getLsbD 2 = true then .reset else s.result)
      (if m.getLsbD 2 = true then .reset else t.result) := by
    split
    · rfl
    · exact h.result
  rw [h.builder, h.working, h.obs]
  exact { h with builder := rfl, working := rfl, result := hresult, obs := rfl }

/-- Every command takes two such states to two such states. -/
theorem exec_alike (h : SameButValidator s t) {i : Instr} (hexec : exec i s = .next s') :
    ∃ t', exec i t = .next t' ∧ SameButValidator s' t' := by
  cases i with
  | nop | rdreg | rdpay => exact h.read_alike rfl hexec
  | bstart | bbyte | bend => exact h.builder_alike rfl hexec
  | srst m =>
    obtain rfl := Host.Outcome.next.inj ((exec_srst m s).symm.trans hexec)
    exact ⟨_, exec_srst m t, h.softReset m⟩
  | dbyte b =>
    refine ⟨_, exec_dbyte_of_alike hexec h.working.symm h.pbuf.symm, ?_⟩
    obtain ⟨w, m, -, rfl⟩ := execDbyte_next.1 hexec
    exact { h with working := rfl, pbuf := rfl }
  | dend =>
    obtain rfl := Host.Outcome.next.inj ((exec_dend s).symm.trans hexec)
    refine ⟨_, exec_dend t, ?_⟩
    rw [← h.working, ← h.pbuf, ← h.obs]
    exact { h with working := rfl, pbuf := rfl, result := commitResult_sameButChecksum .., obs := rfl }

end SameButValidator

/-- Settles O53: a step runs a command, turns an ILLEGAL word away or takes a reset level, and each of these
keeps the two states alike. -/
theorem outcomesIgnoreRxCkFrom : Obligations.OutcomesIgnoreRxCkFrom := by
  unfold Obligations.OutcomesIgnoreRxCkFrom
  intro s t s' h hstep
  rcases step_cases hstep with
    ⟨w, rest, i, hp, hr, hdec, hexec⟩ | ⟨w, rest, why, hp, hr, hdec, rfl⟩ | ⟨a, rest, hp, rfl⟩
  · obtain ⟨t', ht', halike⟩ := (h.setPort rest).exec_alike hexec
    exact ⟨t', (stepRunsDecodedCommand t w rest i (h.port ▸ hp) (h.resetIn ▸ hr) hdec).trans ht', halike⟩
  · exact ⟨_, step_illegal (h.port ▸ hp) (h.resetIn ▸ hr) hdec, (h.setPort rest).addResponses _ _⟩
  · exact ⟨_, step_reset (h.port ▸ hp), (h.setPort rest).setResetLevel a⟩

end Sys2Proof.Machine
